-- ==== Sys2Proof/Word.lean ====
section
/-! DEFINITION. The values on the block's ports: bytes, 16-bit words and the raw transactions a decoder reads
(30_encoding.md R70). -/

namespace Sys2Proof

/-- One byte of a frame. -/
abbrev Byte := BitVec 8

/-- A 16-bit register or port value. -/
abbrev Half := BitVec 16

/-- Which of the two patterns of format `frame` is compared (R89). -/
inductive FrameTest where
  | startMarker
  | term
  deriving DecidableEq, Repr

/-- The attributes of a row of format `field`: what identifies an extractor, since such a row has no match and no
mask (R84, R89). -/
structure FieldDesc where
  payloadOffset : Nat
  frameIndex : Nat
  widthBits : Nat
  signed : Bool
  deriving DecidableEq, Repr

/-- A raw transaction: what stands on the lines of ONE of the formats of R70 and R89. This is the block's
"instruction word"; `Sys2Proof.decode` reads it. DESIGN CHOICE (log entry 2). -/
inductive Txn where
  /-- The host's step ports: `RST`, `EV[2:0]` and the operand byte string `DATA` (R70, R73, R74, R218). -/
  | ports (rst : BitVec 1) (ev : BitVec 3) (data : List Byte)
  /-- A register read, `IDX[3:0]` (R75). -/
  | regport (idx : BitVec 4)
  /-- The 7 bytes of the request as one 56-bit big-endian value (R77). -/
  | sendreq (word : BitVec 56)
  /-- One frame pattern compared with a frame (R89, format `frame`). -/
  | frame (test : FrameTest) (f : List Byte)
  /-- One extractor applied to a frame (R89, format `field`). -/
  | field (desc : FieldDesc) (f : List Byte)
  /-- A protection word given to the priority rows (R89, format `prot`). -/
  | prot (w : Half)
  deriving DecidableEq, Repr

end Sys2Proof
end

