-- ==== Sys2Proof/Config.lean ====
section
/-! DEFINITION. The parameters of the block (00_scope.md R6) and of the host's output text (44_record_readout.md R195,
R197). The fixed constants of R6 stand in Sys2Proof/Machine/Constants.lean. -/

namespace Sys2Proof

/-- The block's two parameters. They are fixed when the block is built (R242); a machine carries its configuration in
its state and no step writes it (log entry 8). -/
structure Config where
  /-- `MAX_ATTEMPTS`, 1 to 15 (R6, D31). -/
  maxAttempts : Nat
  /-- `FRAME_BUF_BYTES`, at least `MIN_FRAME_LEN` = 25 (R6, D6). -/
  frameBufBytes : Nat
  deriving DecidableEq, Repr

/-- The defaults of R6. -/
def Config.default : Config := { maxAttempts := 10, frameBufBytes := 256 }

/-- The constraints of R6; a model rejects any other configuration (93_implementation_defined.md U14). -/
def Config.valid (c : Config) : Bool :=
  decide (1 ≤ c.maxAttempts) && decide (c.maxAttempts ≤ 15) && decide (25 ≤ c.frameBufBytes)

/-- The host's text parameters, which no source fixes: `NUM_TEXT`, how a number num/den is spelled, and `INDENT`, the
text put around and between the members of the object and, such as a newline, after it (R195, R197, D8,
91_not_in_source.md 44-1). The renderer takes them as an argument (log entry 15). -/
structure TextParams where
  numText : Int → Nat → String
  afterOpen : String
  beforeComma : String
  betweenMembers : String
  beforeColon : String
  afterKey : String
  beforeClose : String
  afterClose : String

end Sys2Proof
end

