-- ==== Sys2Proof/Machine/Constants.lean ====
section
/-! DEFINITION. The fixed constants and the constant tables of the block (00_scope.md R6, 20_memory.md R57,
43_protection.md R174). -/

namespace Sys2Proof.Machine

/-- `TERM_BYTE` (R6, D2). -/
def termByte : Byte := 0x77#8

/-- The first byte of `START_MARKER` (R6, R132). -/
def marker0 : Byte := 0xDD#8

/-- The second byte of `START_MARKER` (R6, R132). -/
def marker1 : Byte := 0x03#8

/-- `HDR_LEN` (R6, R134). -/
def hdrLen : Nat := 4

/-- `MIN_FRAME_LEN` (R6, R131). -/
def minFrameLen : Nat := 25

/-- `CHUNKS_PER_ATTEMPT` (R6, R112). -/
def chunksPerAttempt : Nat := 2

/-- The width of `BUF_LEN`: the least w with `FRAME_BUF_BYTES` + 1 ≤ 2^w (R7; 9 at the default). -/
def bufLenBits (c : Config) : Nat := Nat.log2 c.frameBufBytes + 1

/-- `REQ`, the request frame (R57, R77). -/
def req : List Byte := [0xDD#8, 0xA5#8, 0x03#8, 0x00#8, 0xFF#8, 0xFD#8, 0x77#8]

/-- `REQ` as a 56-bit big-endian value (R77). -/
def reqWord : BitVec 56 := 0xDDA50300FFFD77#56

/-- The code of "ok" (R82). -/
def codeOk : BitVec 4 := 0xF#4

/-- `LABEL` (R174). The codes 0xD and 0xE have no string. -/
def label (code : BitVec 4) : Option String :=
  match code.toNat with
  | 0 => some "CellBlockOverVolt"
  | 1 => some "CellBlockUnderVol"
  | 2 => some "BatteryOverVol"
  | 3 => some "BatteryUnderVol"
  | 4 => some "ChargingOverTemp"
  | 5 => some "ChargingLowTemp"
  | 6 => some "DischargingOverTemp"
  | 7 => some "DischargingLowTemp"
  | 8 => some "ChargingOverCurrent"
  | 9 => some "DischargingOverCurrent"
  | 10 => some "ShortCircuit"
  | 11 => some "ForeEndICError"
  | 12 => some "MOSSoftwareLockIn"
  | 15 => some "ok"
  | _ => none

end Sys2Proof.Machine
end

