-- ==== Sys2Proof/Machine/Operands.lean ====
section
/-! DEFINITION. How operands are read from a frame: byte order, conversion primitives and the three tests of the frame
validator (20_memory.md R52, R53; 41_validator.md R131 to R135; 42_extractor.md R150, R151). -/

namespace Sys2Proof.Machine

/-- `f[i]` (R9). The value 0 past the end of `f` is never used: every caller checks the length first (R53, R131; log
entry 7). -/
def byteAt (f : List Byte) (i : Nat) : Byte := f.getD i 0#8

/-- The payload of a frame (R134). -/
def payload (f : List Byte) : List Byte := f.drop hdrLen

/-- The byte at a payload offset: frame index `HDR_LEN` + offset (R134). -/
def payloadByte (f : List Byte) (o : Nat) : Byte := byteAt f (hdrLen + o)

/-- Whether `f` has all of the `n` bytes at payload offset `o`. -/
def fieldFits (f : List Byte) (o n : Nat) : Bool := decide (hdrLen + o + n ≤ f.length)

/-- The big-endian value of a byte string: the byte at the lower index is the more significant (R52). -/
def beValue (bs : List Byte) : Nat := bs.foldl (fun acc b => acc * 256 + b.toNat) 0

/-- `MemRead(a, n)` over the byte string `f` = `BUF[0..BUF_LEN-1]`; no value unless a + n ≤ |f| (R53). -/
def memRead (f : List Byte) (a n : Nat) : Option Nat :=
  if a + n ≤ f.length then some (beValue ((f.drop a).take n)) else none

/-- `BE16` and `FieldU16` (R150). -/
def fieldU16 (f : List Byte) (o : Nat) : Half := payloadByte f o ++ payloadByte f (o + 1)

/-- `FieldS16`: the same pattern, read as signed by `sext` (R150). -/
def fieldS16 (f : List Byte) (o : Nat) : Half := fieldU16 f o

/-- `FieldU8` (R150). -/
def fieldU8 (f : List Byte) (o : Nat) : Byte := payloadByte f o

/-- `sext_N` (R10, R151): two's complement. -/
def sext {n : Nat} (v : BitVec n) : Int :=
  if v.getMsbD 0 then (v.toNat : Int) - 2 ^ n else (v.toNat : Int)

/-- `zext_16` of a narrower pattern (R10). -/
def zext16 {n : Nat} (v : BitVec n) : Half := v.setWidth 16

/-- The start marker test on `f[0..1]` (R132). A byte that is not there does not match. -/
def markerOk (f : List Byte) : Bool :=
  decide (f[0]? = some marker0) && decide (f[1]? = some marker1)

/-- The terminator test on the last byte; an empty string fails it (R108, R133). -/
def termOk (f : List Byte) : Bool := decide (f.getLast? = some termByte)

/-- The three tests of R131 to R133, and nothing else (R135). -/
def validFrame (f : List Byte) : Bool :=
  decide (minFrameLen ≤ f.length) && markerOk f && termOk f

end Sys2Proof.Machine
end

