-- ==== Sys2Proof/Machine/Protection.lean ====
section
/-! DEFINITION. The protection state encoder (43_protection.md): `Prio` as a priority encoder (R170), as the source's
scan (R171) and as match/mask rows (R177), and the binary rendering (R175). -/

namespace Sys2Proof.Machine

/-- `Prio(w)`: the number of the highest set bit among 0..12, or the code of "ok" (R170). -/
def prio (w : Half) : BitVec 4 :=
  match (List.range 13).reverse.find? (fun n => w.getLsbD n) with
  | some n => BitVec.ofNat 4 n
  | none => codeOk

/-- `Prio(w)` as the ascending scan in which a later assignment overwrites an earlier one (R171). -/
def prioScan (w : Half) : BitVec 4 :=
  (List.range 13).foldl (fun code n => if w.getLsbD n then BitVec.ofNat 4 n else code) codeOk

/-- One row of R177. -/
structure ProtRow where
  code : BitVec 4
  mask : Half
  pattern : Half
  deriving DecidableEq, Repr

/-- When a row applies to a word (R177). -/
def ProtRow.applies (r : ProtRow) (w : Half) : Bool := decide (w &&& r.mask = r.pattern)

def rowOk : ProtRow := ⟨0xF#4, 0x1FFF#16, 0x0000#16⟩
def row0 : ProtRow := ⟨0x0#4, 0x1FFF#16, 0x0001#16⟩
def row1 : ProtRow := ⟨0x1#4, 0x1FFE#16, 0x0002#16⟩
def row2 : ProtRow := ⟨0x2#4, 0x1FFC#16, 0x0004#16⟩
def row3 : ProtRow := ⟨0x3#4, 0x1FF8#16, 0x0008#16⟩
def row4 : ProtRow := ⟨0x4#4, 0x1FF0#16, 0x0010#16⟩
def row5 : ProtRow := ⟨0x5#4, 0x1FE0#16, 0x0020#16⟩
def row6 : ProtRow := ⟨0x6#4, 0x1FC0#16, 0x0040#16⟩
def row7 : ProtRow := ⟨0x7#4, 0x1F80#16, 0x0080#16⟩
def row8 : ProtRow := ⟨0x8#4, 0x1F00#16, 0x0100#16⟩
def row9 : ProtRow := ⟨0x9#4, 0x1E00#16, 0x0200#16⟩
def row10 : ProtRow := ⟨0xA#4, 0x1C00#16, 0x0400#16⟩
def row11 : ProtRow := ⟨0xB#4, 0x1800#16, 0x0800#16⟩
def row12 : ProtRow := ⟨0xC#4, 0x1000#16, 0x1000#16⟩

/-- The 14 rows of R177, in its order. -/
def protRows : List ProtRow :=
  [rowOk, row0, row1, row2, row3, row4, row5, row6, row7, row8, row9, row10, row11, row12]

/-- `Bin16(w)`: 16 characters, bit 15 first (R175). -/
def bin16 (w : Half) : List Char :=
  (List.range 16).map (fun k => if w.getLsbD (15 - k) then '1' else '0')

end Sys2Proof.Machine
end

