-- ==== Sys2Proof/Syntax.lean ====
section
/-! DEFINITION. The operations of the block: one constructor per row of spec/opcode_table.json (30_encoding.md R89). -/

namespace Sys2Proof

/-- An operation with its operands. `f` is a frame (41_validator.md R130), `w` a protection word (43_protection.md
R170). -/
inductive Instr where
  -- format `event` (R71)
  /-- NOP, R105. -/
  | nop
  /-- START, R107. -/
  | start
  /-- CHUNK with its operand `DATA`, R108. -/
  | chunk (data : List Byte)
  /-- TIMEOUT, R109. -/
  | timeout
  /-- The reserved codes 100 to 111, with the two low bits of the code, R110. -/
  | reserved (low : BitVec 2)
  -- format `reset` (R74)
  /-- RESET, R240. -/
  | reset
  -- format `regport` (R75)
  /-- READ of a register index, R190. -/
  | read (idx : BitVec 4)
  -- format `sendreq` (R77)
  /-- The emission of `SendReq(REQ)`, R76, R77. -/
  | sendreq
  -- format `frame`
  /-- The start marker test on `f[0..1]`, R132. -/
  | startMarker (f : List Byte)
  /-- The terminator test on `f[L-1]`, R133. -/
  | term (f : List Byte)
  -- format `field` (R84)
  /-- R153. -/
  | extVmain (f : List Byte)
  /-- R154. -/
  | extImain (f : List Byte)
  /-- R155. -/
  | extRemcap (f : List Byte)
  /-- R156. -/
  | extNomcap (f : List Byte)
  /-- R157. -/
  | extNcyc (f : List Byte)
  /-- R158. -/
  | extProt (f : List Byte)
  /-- R159. -/
  | extSoc (f : List Byte)
  -- format `prot` (R177): the row and the word it is applied to
  /-- The row of "ok", R172. -/
  | protOk (w : Half)
  /-- The rows of bits 0 to 12, R170, R177. -/
  | protBit0 (w : Half)
  | protBit1 (w : Half)
  | protBit2 (w : Half)
  | protBit3 (w : Half)
  | protBit4 (w : Half)
  | protBit5 (w : Half)
  | protBit6 (w : Half)
  | protBit7 (w : Half)
  | protBit8 (w : Half)
  | protBit9 (w : Half)
  | protBit10 (w : Half)
  | protBit11 (w : Half)
  | protBit12 (w : Half)
  deriving DecidableEq, Repr

end Sys2Proof
end

