-- ==== Sys2Proof/WellFormed.lean ====
section
/-! DEFINITION. Which operations are well formed: an extractor's operand has passed the validator (42_extractor.md,
41_validator.md R136), and a protection row stands with a word it applies to (43_protection.md R177). -/

namespace Sys2Proof

open Machine

/-- The checks on an operation's operands. Every other row admits every operand (R73, R75, R88, R110, R133). -/
def Instr.wellFormed : Instr → Bool
  | .nop => true
  | .start => true
  | .chunk _ => true
  | .timeout => true
  | .reserved _ => true
  | .reset => true
  | .read _ => true
  | .sendreq => true
  | .startMarker _ => true
  | .term _ => true
  | .extVmain f => validFrame f
  | .extImain f => validFrame f
  | .extRemcap f => validFrame f
  | .extNomcap f => validFrame f
  | .extNcyc f => validFrame f
  | .extProt f => validFrame f
  | .extSoc f => validFrame f
  | .protOk w => rowOk.applies w
  | .protBit0 w => row0.applies w
  | .protBit1 w => row1.applies w
  | .protBit2 w => row2.applies w
  | .protBit3 w => row3.applies w
  | .protBit4 w => row4.applies w
  | .protBit5 w => row5.applies w
  | .protBit6 w => row6.applies w
  | .protBit7 w => row7.applies w
  | .protBit8 w => row8.applies w
  | .protBit9 w => row9.applies w
  | .protBit10 w => row10.applies w
  | .protBit11 w => row11.applies w
  | .protBit12 w => row12.applies w

end Sys2Proof
end

