-- ==== Sys2Proof/Decode.lean ====
section
/-! DEFINITION. The decoder from raw transactions to operations, total and rejecting by name, and the encoder written
from the same tables (30_encoding.md R70 to R77, R84, R89; 43_protection.md R177). -/

namespace Sys2Proof

open Machine

/-- Why a transaction is no operation of the table. Only unit transactions can be rejected: every value of the host's
ports is defined (R88). -/
inductive DecodeError where
  /-- A 56-bit word other than `REQ` (R77: mask all ones). -/
  | notTheRequest
  /-- A field descriptor that is none of the seven rows of R84 ("No other placement exists", R55). -/
  | noSuchField
  /-- An extractor's operand that has not passed R131 to R133. -/
  | frameNotValidated
  /-- A protection word to which no row of R177 applies; there is none. -/
  | noProtRow
  deriving DecidableEq, Repr

/-- What decoding answers. -/
inductive Decoded where
  | ok (i : Instr)
  | rejected (e : DecodeError)
  deriving DecidableEq, Repr

def Decoded.toOption : Decoded → Option Instr
  | .ok i => some i
  | .rejected _ => none

/-! ### The field rows of R84 -/

def fieldVmain : FieldDesc := ⟨0, 4, 16, true⟩
def fieldImain : FieldDesc := ⟨2, 6, 16, true⟩
def fieldRemcap : FieldDesc := ⟨4, 8, 16, true⟩
def fieldNomcap : FieldDesc := ⟨6, 10, 16, true⟩
def fieldNcyc : FieldDesc := ⟨8, 12, 16, true⟩
def fieldProt : FieldDesc := ⟨16, 20, 16, false⟩
def fieldSoc : FieldDesc := ⟨19, 23, 8, false⟩

/-! ### Decoding -/

/-- The event codes of R71. The operand is that of CHUNK alone; presented with another code it is dropped (R110 for
the reserved codes; log entry 2). -/
def decodeEvent (ev : BitVec 3) (data : List Byte) : Instr :=
  if ev = 0b000#3 then .nop
  else if ev = 0b001#3 then .start
  else if ev = 0b010#3 then .chunk data
  else if ev = 0b011#3 then .timeout
  else .reserved (ev.setWidth 2)

/-- `RST` = 1 performs the reset and replaces the event of its step (R74, R218). -/
def decodePorts (rst : BitVec 1) (ev : BitVec 3) (data : List Byte) : Instr :=
  if rst = 1#1 then .reset else decodeEvent ev data

/-- The extractor of each field row (R84). -/
def fieldTable : List (FieldDesc × (List Byte → Instr)) :=
  [(fieldVmain, .extVmain), (fieldImain, .extImain), (fieldRemcap, .extRemcap), (fieldNomcap, .extNomcap),
   (fieldNcyc, .extNcyc), (fieldProt, .extProt), (fieldSoc, .extSoc)]

/-- The extractor a descriptor names, on a frame that passed R131 to R133. -/
def decodeField (d : FieldDesc) (f : List Byte) : Decoded :=
  if !validFrame f then .rejected .frameNotValidated
  else
    match fieldTable.find? (fun e => decide (e.1 = d)) with
    | some e => .ok (e.2 f)
    | none => .rejected .noSuchField

/-- The operation of each protection row (R177). -/
def protTable : List (ProtRow × (Half → Instr)) :=
  [(rowOk, .protOk), (row0, .protBit0), (row1, .protBit1), (row2, .protBit2), (row3, .protBit3), (row4, .protBit4),
   (row5, .protBit5), (row6, .protBit6), (row7, .protBit7), (row8, .protBit8), (row9, .protBit9),
   (row10, .protBit10), (row11, .protBit11), (row12, .protBit12)]

/-- The row that applies to a protection word (R177). -/
def decodeProt (w : Half) : Decoded :=
  match protTable.find? (fun e => e.1.applies w) with
  | some e => .ok (e.2 w)
  | none => .rejected .noProtRow

/-- The pattern of format `frame` and the frame it is compared with. -/
def decodeFrame (t : FrameTest) (f : List Byte) : Instr :=
  match t with
  | .startMarker => .startMarker f
  | .term => .term f

/-- The decoder: the format is given by the port, the operation by the bits on it. -/
def decode : Txn → Decoded
  | .ports rst ev data => .ok (decodePorts rst ev data)
  | .regport idx => .ok (.read idx)
  | .sendreq word => if word = reqWord then .ok .sendreq else .rejected .notTheRequest
  | .frame t f => .ok (decodeFrame t f)
  | .field d f => decodeField d f
  | .prot w => decodeProt w

/-! ### Encoding -/

/-- An event code presented with `RST` = 0. -/
def eventTxn (ev : BitVec 3) (data : List Byte) : Txn := .ports 0#1 ev data

/-- The transaction of an operation (R70, R71, R74, R75, R77, R84, R177). -/
def encode : Instr → Txn
  | .nop => eventTxn 0b000#3 []
  | .start => eventTxn 0b001#3 []
  | .chunk data => eventTxn 0b010#3 data
  | .timeout => eventTxn 0b011#3 []
  | .reserved low => eventTxn (1#1 ++ low) []
  | .reset => .ports 1#1 0b000#3 []
  | .read idx => .regport idx
  | .sendreq => .sendreq reqWord
  | .startMarker f => .frame .startMarker f
  | .term f => .frame .term f
  | .extVmain f => .field fieldVmain f
  | .extImain f => .field fieldImain f
  | .extRemcap f => .field fieldRemcap f
  | .extNomcap f => .field fieldNomcap f
  | .extNcyc f => .field fieldNcyc f
  | .extProt f => .field fieldProt f
  | .extSoc f => .field fieldSoc f
  | .protOk w => .prot w
  | .protBit0 w => .prot w
  | .protBit1 w => .prot w
  | .protBit2 w => .prot w
  | .protBit3 w => .prot w
  | .protBit4 w => .prot w
  | .protBit5 w => .prot w
  | .protBit6 w => .prot w
  | .protBit7 w => .prot w
  | .protBit8 w => .prot w
  | .protBit9 w => .prot w
  | .protBit10 w => .prot w
  | .protBit11 w => .prot w
  | .protBit12 w => .prot w

/-! ### The table's numbering

A table row gives bits but not the port they stand on, and rows of different formats share words. The width of the row
and the word choose the port as below; where two rows of one width share a word the choice is the event's
(log entry 12). -/

/-- The shortest frame that passes R131 to R133, all other bytes zero: the frame a field row's word is completed
with. -/
def zeroFrame : List Byte := [marker0, marker1] ++ List.replicate 22 0#8 ++ [termByte]

/-- The descriptor of the field row with the given payload offset (R84). -/
def fieldAt (o : Nat) : FieldDesc :=
  if o = 0 then fieldVmain
  else if o = 2 then fieldImain
  else if o = 4 then fieldRemcap
  else if o = 6 then fieldNomcap
  else if o = 8 then fieldNcyc
  else if o = 16 then fieldProt
  else if o = 19 then fieldSoc
  else ⟨o, hdrLen + o, 0, false⟩

/-- The transaction that a word of `nbits` bits of the opcode table stands for (log entry 12). -/
def tableTxn (nbits w : Nat) : Txn :=
  if nbits = 0 then .regport (BitVec.ofNat 4 w)
  else if nbits = 1 then .ports (BitVec.ofNat 1 w) 0#3 []
  else if nbits = 4 then .regport (BitVec.ofNat 4 w)
  else if nbits ≤ 8 then
    if w = 0x77 then .frame .term [0x77#8] else eventTxn (BitVec.ofNat 3 w) []
  else if nbits ≤ 16 then
    if w = 0xDD03 then .frame .startMarker [0xDD#8, 0x03#8] else .prot (BitVec.ofNat 16 w)
  else if nbits ≤ 24 then .field (fieldAt (w % 256)) zeroFrame
  else .sendreq (BitVec.ofNat 56 w)

/-- What the decoder reads from a word numbered as spec/opcode_table.json numbers it. -/
def decodeTableWord (nbits w : Nat) : Option Instr := (decode (tableTxn nbits w)).toOption

end Sys2Proof
end

