-- ==== Sys2Proof/Machine/Record.lean ====
section
/-! DEFINITION. The record (10_state.md R24) and the result type of `DecodeFn` (41_validator.md R130). -/

namespace Sys2Proof.Machine

/-- The eight record fields of R24, as stored patterns. -/
structure Record where
  vmain : Half
  imain : Half
  remcap : Half
  nomcap : Half
  ncyc : Half
  prot : Half
  soc : Byte
  pcode : BitVec 4
  deriving DecidableEq, Repr

/-- The values of reset and of an accepted START (R33, R107). -/
def Record.cleared : Record :=
  { vmain := 0x0000#16, imain := 0x0000#16, remcap := 0x0000#16, nomcap := 0x0000#16, ncyc := 0x0000#16,
    prot := 0x0000#16, soc := 0x00#8, pcode := 0xF#4 }

/-- `Ok(rec)` or `MalformedFrame` (R130). -/
inductive DecodeResult where
  | ok (r : Record)
  | malformedFrame
  deriving DecidableEq, Repr

end Sys2Proof.Machine
end

