-- ==== Sys2Proof/Machine/State.lean ====
section
/-! DEFINITION. The state of the block (10_state.md R20), its reset value (R33), and the reasons a step can stop. -/

namespace Sys2Proof.Machine

/-- `PHASE`, a five-valued enumeration (R21, R81). -/
inductive Phase where
  | idle
  | wait0
  | wait1
  | doneOk
  | doneFail
  deriving DecidableEq, Repr

/-- `ERR` (R26, R80). The code of `ConnectTimeout` is never produced and is not representable (U3). -/
inductive Err where
  | none
  | noResponse
  | malformedFrame
  deriving DecidableEq, Repr

/-- An output event of the block; `SendReq` is the only one (R76). -/
inductive OutEvent where
  | sendReq (bytes : List Byte)
  deriving DecidableEq, Repr

/-- A memory: cells at strictly rising addresses, none of them holding what an unlisted address reads as. -/
abbrev Memory := List Host.Cell

/-- What an unlisted address of `BUF` reads as. DESIGN CHOICE, unsafe (log entry 9): the spec leaves these bytes
unspecified and says that they are never read (R33, R64). -/
def Memory.blank : Byte := 0x00#8

/-- The canonical form of a memory. -/
abbrev Memory.wf (m : Memory) : Prop :=
  m.Pairwise (fun c d => c.1 < d.1) ∧ ∀ c ∈ m, c.2 ≠ Memory.blank

/-- The state. The first group is the whole architectural state of R20; the second is the model's own: the
configuration (R6, R34) and what stands on the block's ports and in its units (R11, R34, R70, R136). -/
structure State where
  /-- `PHASE`, R21. -/
  phase : Phase
  /-- `ATTEMPT`, 4 bits, R22. -/
  attempt : BitVec 4
  /-- `BUF`, R23, R51. -/
  buf : Memory
  /-- `BUF_LEN`, R23, as a number: at most `FRAME_BUF_BYTES` by invariant 1 of R35, so that it fits the register's
  `bufLenBits` bits (R7; `State.bufLenReg`, log entry 13). -/
  bufLen : Nat
  /-- `VMAIN`, `IMAIN`, `REMCAP`, `NOMCAP`, `NCYC`, `PROT`, `SOC`, `PCODE`, R24. -/
  regs : Record
  /-- `REC_VALID`, R25. -/
  recValid : Bool
  /-- `ERR`, R26. -/
  err : Err
  /-- `IGN`, R27. -/
  ign : Bool
  /-- The parameters of R6; no step writes them (log entry 8). -/
  cfg : Config
  /-- The transactions still to be presented, the next one first (R34, R218; log entry 1). -/
  pending : List Txn
  /-- The output events emitted in the current step, oldest first (R10, R11; log entry 4). -/
  out : List OutEvent
  /-- `RDATA[15:0]` of the last READ (R70, R190; log entry 5). -/
  rdata : Half
  /-- Whether the frame pattern of the last START_MARKER or TERM operation matched (R132, R133; log entry 6). -/
  matched : Bool
  /-- The working record `rec` of R136 as the unit operations have built it (log entry 6). -/
  unitRec : Record
  deriving DecidableEq, Repr

/-- The state after reset (R33, R240), with the default parameters of R6, no transaction pending, and the model's own
fields at zero (log entries 1, 4, 5, 6). -/
def State.reset : State where
  phase := .idle
  attempt := 0#4
  buf := []
  bufLen := 0
  regs := Record.cleared
  recValid := false
  err := .none
  ign := false
  cfg := Config.default
  pending := []
  out := []
  rdata := 0x0000#16
  matched := false
  unitRec := Record.cleared

/-- Why the machine stops with a fault. -/
inductive Fault where
  /-- Raised by the EXT rows on an operand that lacks a byte of the field: `MemRead` is defined only for
  a + n ≤ `BUF_LEN` (R53). Safe: the block never makes such a read (R131); log entry 7. -/
  | readPastFrame
  deriving DecidableEq, Repr

/-- Why a step is refused. -/
inductive Refusal where
  /-- Raised by `exec` for an operation whose meaning is not written; no arm uses it. Safe. -/
  | notModelled (mnemonic : String)
  /-- Raised by `step` when the transaction presented is no operation of the table. Safe: no transaction of the host
  is rejected (R88). -/
  | undecodable (e : DecodeError)
  /-- Raised by `step` for parameters outside R6: a model rejects the configuration (U14). Safe. -/
  | unsupportedConfig
  deriving DecidableEq, Repr

end Sys2Proof.Machine
end

