-- ==== Sys2Proof/Machine/Flags.lean ====
section
/-! DEFINITION. The codes and flags software sees: `PHASE`, `ERR`, `DONE` and the status word `STATUS` (10_state.md R28,
R31; 30_encoding.md R80, R81), and the register port map (20_memory.md R56). -/

namespace Sys2Proof.Machine

/-- `PHASE[2:0]` (R81). -/
def Phase.code : Phase → BitVec 3
  | .idle => 0b000#3
  | .wait0 => 0b001#3
  | .wait1 => 0b010#3
  | .doneOk => 0b011#3
  | .doneFail => 0b100#3

/-- `ERR[1:0]` (R80). -/
def Err.code : Err → BitVec 2
  | .none => 0b00#2
  | .noResponse => 0b01#2
  | .malformedFrame => 0b10#2

/-- `WAIT0` or `WAIT1`: an attempt is waiting for a chunk. -/
def Phase.waiting : Phase → Bool
  | .wait0 => true
  | .wait1 => true
  | .idle => false
  | .doneOk => false
  | .doneFail => false

/-- The level output `DONE`, not stored (R28, R216). -/
def State.done (s : State) : Bool := decide (s.phase = .doneOk) || decide (s.phase = .doneFail)

/-- `STATUS` (R31): 0b0000, `REC_VALID`, `IGN`, `ERR`, `ATTEMPT`, `DONE`, `PHASE`, most significant first. -/
def State.status (s : State) : Half :=
  0b0000#4 ++ BitVec.ofBool s.recValid ++ BitVec.ofBool s.ign ++ s.err.code ++ s.attempt ++ BitVec.ofBool s.done
    ++ s.phase.code

/-- `BUF_LEN` as the register of R7 holds it. -/
def State.bufLenReg (s : State) : BitVec (bufLenBits s.cfg) := BitVec.ofNat _ s.bufLen

/-- `RegMap(IDX)` (R56). Indexes 0x9 to 0xF are unmapped and read 0x0000. -/
def State.regMap (s : State) (idx : BitVec 4) : Half :=
  match idx.toNat with
  | 0 => s.status
  | 1 => s.regs.vmain
  | 2 => s.regs.imain
  | 3 => s.regs.remcap
  | 4 => s.regs.nomcap
  | 5 => s.regs.ncyc
  | 6 => s.regs.prot
  | 7 => zext16 s.regs.soc
  | 8 => zext16 s.regs.pcode
  | _ => 0x0000#16

end Sys2Proof.Machine
end

