-- ==== Sys2Proof/Machine/Validator.lean ====
section
/-! DEFINITION. `DecodeFn`, the pure function of the frame validator, the field extractor and the protection encoder
(41_validator.md R130, R136). -/

namespace Sys2Proof.Machine

/-- `Extract(f)` (R136); used on frames that passed R131 to R133. -/
def extract (f : List Byte) : Record :=
  { vmain := fieldS16 f 0
    imain := fieldS16 f 2
    remcap := fieldS16 f 4
    nomcap := fieldS16 f 6
    ncyc := fieldS16 f 8
    prot := fieldU16 f 16
    soc := fieldU8 f 19
    pcode := prio (fieldU16 f 16) }

/-- `DecodeFn(f)` (R130): length, start marker, terminator, then extraction. -/
def decodeFn (f : List Byte) : DecodeResult :=
  if f.length < minFrameLen then .malformedFrame
  else if !markerOk f then .malformedFrame
  else if !termOk f then .malformedFrame
  else .ok (extract f)

end Sys2Proof.Machine
end

