-- ==== Sys2Proof/Machine/Ops.lean ====
section
/-! DEFINITION. The named operations the meanings are built from: the frame buffer (20_memory.md R51 to R54, R64), the
internal procedures of the frame assembler (40_assembler.md R102 to R104), raising an error and leaving it
(60_exceptions.md R212, R220), and the unit latches. -/

namespace Sys2Proof.Machine

/-! ### The frame buffer -/

/-- The byte at an address of `BUF` (R51). -/
def Memory.read : Memory → Nat → Byte
  | [], _ => Memory.blank
  | (k, v) :: m, a => if k = a then v else Memory.read m a

/-- Store one byte, keeping the canonical form. -/
def Memory.write : Memory → Nat → Byte → Memory
  | [], a, b => if b = Memory.blank then [] else [(a, b)]
  | (k, v) :: m, a, b =>
    if a < k then (if b = Memory.blank then (k, v) :: m else (a, b) :: (k, v) :: m)
    else if a = k then (if b = Memory.blank then m else (a, b) :: m)
    else (k, v) :: Memory.write m a b

/-- `MemWrite(a, n, c)` with n = |c|: `BUF[a+k] <- c[k]` (R54). -/
def Memory.writeBytes : Memory → Nat → List Byte → Memory
  | m, _, [] => m
  | m, a, b :: bs => Memory.writeBytes (Memory.write m a b) (a + 1) bs

/-- `BUF[0..BUF_LEN-1]`, the only bytes any rule reads (R64). -/
def State.frame (s : State) : List Byte := (List.range s.bufLen).map s.buf.read

/-- `MemRead(a, n)` on the block (R53). -/
def State.memRead (s : State) (a n : Nat) : Option Nat := Machine.memRead s.frame a n

/-- Append a chunk to the buffer: `MemWrite(BUF_LEN, n, DATA)` and `BUF_LEN <- BUF_LEN + n` (R108). -/
def State.storeChunk (s : State) (data : List Byte) : State :=
  { s with buf := s.buf.writeBytes s.bufLen data, bufLen := s.bufLen + data.length }

/-- The first chunk is stored; the second is awaited (R108). -/
def State.awaitSecond (s : State) : State := { s with phase := .wait1 }

/-! ### Output -/

/-- `emit SendReq(REQ)` (R10, R76). -/
def State.emitRequest (s : State) : State := { s with out := s.out ++ [.sendReq req] }

/-! ### Ignored events -/

/-- An event the block ignores: only `IGN` is set (R27, R215). -/
def State.ignore (s : State) : State := { s with ign := true }

/-! ### Taking an error and leaving it -/

/-- `raise E` (R212): the one way into `DONE_FAIL`. -/
def State.raise (s : State) (e : Err) : State := { s with err := e, phase := .doneFail }

/-- `StartAttempt()` (R102). -/
def State.startAttempt (s : State) : State :=
  State.emitRequest { s with bufLen := 0, phase := .wait0 }

/-- The accepted START (R107): leaves `IDLE`, `DONE_OK` or `DONE_FAIL`, clears the outcome of the last cycle and the
record, and begins attempt 1. It is the return from an error outcome (R220). -/
def State.newCycle (s : State) : State :=
  State.startAttempt
    { s with ign := false, err := .none, recValid := false, regs := Record.cleared, attempt := 1#4 }

/-- `FailAttempt()` (R103). -/
def State.failAttempt (s : State) : State :=
  if s.attempt.toNat < s.cfg.maxAttempts then
    State.startAttempt { s with attempt := s.attempt + 1#4 }
  else
    State.raise { s with bufLen := 0 } .noResponse

/-- `Complete()` (R104): decode the buffer, discard it, and latch the record or raise `MalformedFrame`. -/
def State.complete (s : State) : State :=
  match decodeFn s.frame with
  | .ok r => { s with bufLen := 0, regs := r, recValid := true, err := .none, phase := .doneOk }
  | .malformedFrame => State.raise { s with bufLen := 0 } .malformedFrame

/-- RESET (R240): every element of R20 takes its value of R33. `BUF` becomes unspecified, that is, nothing of it is
listed (log entry 9). The model's own fields are no state of the block and stay (log entry 16). -/
def State.resetBlock (s : State) : State :=
  { s with
    phase := State.reset.phase, attempt := State.reset.attempt, buf := State.reset.buf,
    bufLen := State.reset.bufLen, regs := State.reset.regs, recValid := State.reset.recValid,
    err := State.reset.err, ign := State.reset.ign }

/-! ### Unit latches (log entry 6) -/

/-- The result of a frame pattern test (R132, R133). -/
def State.latchMatch (s : State) (m : Bool) : State := { s with matched := m }

/-- A field of the working record (R136). -/
def State.latchField (s : State) (set : Record → Record) : State := { s with unitRec := set s.unitRec }

/-- An extractor on a frame that must hold `n` bytes at payload offset `o` (R53, R150). -/
def extractTo (f : List Byte) (o n : Nat) (set : Record → Record) (s : State) : Host.Outcome State Fault Refusal :=
  if fieldFits f o n then .next (s.latchField set) else .fault .readPastFrame

/-- A protection row: where it applies it gives its code, elsewhere it has no effect (R177). -/
def applyRow (row : ProtRow) (w : Half) (s : State) : Host.Outcome State Fault Refusal :=
  .next (if row.applies w then s.latchField (fun r => { r with pcode := row.code }) else s)

end Sys2Proof.Machine
end

