-- ==== Sys2Proof/Machine/Event.lean ====
section
/-! DEFINITION. The meanings of the rows of format `event` (40_assembler.md R105 to R110). -/

namespace Sys2Proof.Machine

/-- NOP (R105): nothing, in every phase. -/
def execNop (s : State) : Host.Outcome State Fault Refusal := .next s

/-- START (R107). -/
def execStart (s : State) : Host.Outcome State Fault Refusal :=
  .next (if s.phase.waiting then s.ignore else s.newCycle)

/-- The second chunk of an attempt has been stored: the terminator test on the concatenation (R108, R112). -/
def judgeFrame (s : State) : State :=
  if termOk s.frame then s.complete else s.failAttempt

/-- CHUNK (R108), in the order of R217: ignored, overflow, first chunk, terminator test, `DecodeFn`. -/
def execChunk (data : List Byte) (s : State) : Host.Outcome State Fault Refusal :=
  .next
    (if !s.phase.waiting then s.ignore
     else if s.cfg.frameBufBytes < s.bufLen + data.length then s.failAttempt
     else if s.phase = .wait0 then (s.storeChunk data).awaitSecond
     else judgeFrame (s.storeChunk data))

/-- TIMEOUT (R109). -/
def execTimeout (s : State) : Host.Outcome State Fault Refusal :=
  .next (if s.phase.waiting then s.failAttempt else s.ignore)

/-- The reserved codes (R110): every one of them only sets `IGN`. -/
def execReserved (_low : BitVec 2) (s : State) : Host.Outcome State Fault Refusal := .next s.ignore

end Sys2Proof.Machine
end

