-- ==== Sys2Proof/Machine/Field.lean ====
section
/-! DEFINITION. The meanings of the rows of format `field` (42_extractor.md R153 to R159): each writes its field of the
working record; `Complete` latches the record whole (R161). -/

namespace Sys2Proof.Machine

/-- R153. -/
def execExtVmain (f : List Byte) (s : State) : Host.Outcome State Fault Refusal :=
  extractTo f 0 2 (fun r => { r with vmain := fieldS16 f 0 }) s

/-- R154. -/
def execExtImain (f : List Byte) (s : State) : Host.Outcome State Fault Refusal :=
  extractTo f 2 2 (fun r => { r with imain := fieldS16 f 2 }) s

/-- R155. -/
def execExtRemcap (f : List Byte) (s : State) : Host.Outcome State Fault Refusal :=
  extractTo f 4 2 (fun r => { r with remcap := fieldS16 f 4 }) s

/-- R156. -/
def execExtNomcap (f : List Byte) (s : State) : Host.Outcome State Fault Refusal :=
  extractTo f 6 2 (fun r => { r with nomcap := fieldS16 f 6 }) s

/-- R157. -/
def execExtNcyc (f : List Byte) (s : State) : Host.Outcome State Fault Refusal :=
  extractTo f 8 2 (fun r => { r with ncyc := fieldS16 f 8 }) s

/-- R158. -/
def execExtProt (f : List Byte) (s : State) : Host.Outcome State Fault Refusal :=
  extractTo f 16 2 (fun r => { r with prot := fieldU16 f 16 }) s

/-- R159. -/
def execExtSoc (f : List Byte) (s : State) : Host.Outcome State Fault Refusal :=
  extractTo f 19 1 (fun r => { r with soc := fieldU8 f 19 }) s

end Sys2Proof.Machine
end

