-- ==== Sys2Proof/Machine/Frame.lean ====
section
/-! DEFINITION. The meanings of the rows of format `frame` (41_validator.md R132, R133). On the block the tests are made
by `decodeFn` and, for the terminator, by CHUNK; both use the same predicates. -/

namespace Sys2Proof.Machine

/-- START_MARKER: compare `f[0..1]` with `DD 03`. -/
def execStartMarker (f : List Byte) (s : State) : Host.Outcome State Fault Refusal :=
  .next (s.latchMatch (markerOk f))

/-- TERM: compare `f[L-1]` with `TERM_BYTE`. -/
def execTerm (f : List Byte) (s : State) : Host.Outcome State Fault Refusal :=
  .next (s.latchMatch (termOk f))

end Sys2Proof.Machine
end

