-- ==== Sys2Proof/Machine/Prot.lean ====
section
/-! DEFINITION. The meanings of the rows of format `prot` (43_protection.md R170, R177): each gives its code as `PCODE` of
the working record where it applies to the word. -/

namespace Sys2Proof.Machine

def execProtOk (w : Half) (s : State) : Host.Outcome State Fault Refusal := applyRow rowOk w s

def execProtBit0 (w : Half) (s : State) : Host.Outcome State Fault Refusal := applyRow row0 w s

def execProtBit1 (w : Half) (s : State) : Host.Outcome State Fault Refusal := applyRow row1 w s

def execProtBit2 (w : Half) (s : State) : Host.Outcome State Fault Refusal := applyRow row2 w s

def execProtBit3 (w : Half) (s : State) : Host.Outcome State Fault Refusal := applyRow row3 w s

def execProtBit4 (w : Half) (s : State) : Host.Outcome State Fault Refusal := applyRow row4 w s

def execProtBit5 (w : Half) (s : State) : Host.Outcome State Fault Refusal := applyRow row5 w s

def execProtBit6 (w : Half) (s : State) : Host.Outcome State Fault Refusal := applyRow row6 w s

def execProtBit7 (w : Half) (s : State) : Host.Outcome State Fault Refusal := applyRow row7 w s

def execProtBit8 (w : Half) (s : State) : Host.Outcome State Fault Refusal := applyRow row8 w s

def execProtBit9 (w : Half) (s : State) : Host.Outcome State Fault Refusal := applyRow row9 w s

def execProtBit10 (w : Half) (s : State) : Host.Outcome State Fault Refusal := applyRow row10 w s

def execProtBit11 (w : Half) (s : State) : Host.Outcome State Fault Refusal := applyRow row11 w s

def execProtBit12 (w : Half) (s : State) : Host.Outcome State Fault Refusal := applyRow row12 w s

end Sys2Proof.Machine
end

