-- ==== Sys2Proof/Machine/Regport.lean ====
section
/-! DEFINITION. The meaning of the row of format `regport` (44_record_readout.md R190, R191). -/

namespace Sys2Proof.Machine

/-- READ (R190): `RDATA <- RegMap(IDX)`. No element of R20 changes (R191). -/
def execRead (idx : BitVec 4) (s : State) : Host.Outcome State Fault Refusal :=
  .next { s with rdata := s.regMap idx }

end Sys2Proof.Machine
end

