-- ==== Sys2Proof/Machine/Reset.lean ====
section
/-! DEFINITION. The meaning of the row of format `reset` (70_reset_and_hazards.md R240). -/

namespace Sys2Proof.Machine

/-- RESET (R240), in every phase and without a `SendReq`. -/
def execReset (s : State) : Host.Outcome State Fault Refusal := .next s.resetBlock

end Sys2Proof.Machine
end

