-- ==== Sys2Proof/Machine/Sendreq.lean ====
section
/-! DEFINITION. The meaning of the row of format `sendreq` (30_encoding.md R76, R77). -/

namespace Sys2Proof.Machine

/-- SENDREQ: the request goes out on the output interface, unmodified. On the block it happens inside StartAttempt
only (R76, R102; log entry 6). -/
def execSendreq (s : State) : Host.Outcome State Fault Refusal := .next s.emitRequest

end Sys2Proof.Machine
end

