-- ==== Sys2Proof/Machine/Dispatch.lean ====
section
/-! DEFINITION. One arm per operation. -/

namespace Sys2Proof.Machine

def exec (i : Instr) (s : State) : Host.Outcome State Fault Refusal :=
  match i with
  | .nop => Sys2Proof.Machine.execNop s
  | .start => Sys2Proof.Machine.execStart s
  | .chunk data => Sys2Proof.Machine.execChunk data s
  | .timeout => Sys2Proof.Machine.execTimeout s
  | .reserved low => Sys2Proof.Machine.execReserved low s
  | .reset => Sys2Proof.Machine.execReset s
  | .read idx => Sys2Proof.Machine.execRead idx s
  | .sendreq => Sys2Proof.Machine.execSendreq s
  | .startMarker f => Sys2Proof.Machine.execStartMarker f s
  | .term f => Sys2Proof.Machine.execTerm f s
  | .extVmain f => Sys2Proof.Machine.execExtVmain f s
  | .extImain f => Sys2Proof.Machine.execExtImain f s
  | .extRemcap f => Sys2Proof.Machine.execExtRemcap f s
  | .extNomcap f => Sys2Proof.Machine.execExtNomcap f s
  | .extNcyc f => Sys2Proof.Machine.execExtNcyc f s
  | .extProt f => Sys2Proof.Machine.execExtProt f s
  | .extSoc f => Sys2Proof.Machine.execExtSoc f s
  | .protOk w => Sys2Proof.Machine.execProtOk w s
  | .protBit0 w => Sys2Proof.Machine.execProtBit0 w s
  | .protBit1 w => Sys2Proof.Machine.execProtBit1 w s
  | .protBit2 w => Sys2Proof.Machine.execProtBit2 w s
  | .protBit3 w => Sys2Proof.Machine.execProtBit3 w s
  | .protBit4 w => Sys2Proof.Machine.execProtBit4 w s
  | .protBit5 w => Sys2Proof.Machine.execProtBit5 w s
  | .protBit6 w => Sys2Proof.Machine.execProtBit6 w s
  | .protBit7 w => Sys2Proof.Machine.execProtBit7 w s
  | .protBit8 w => Sys2Proof.Machine.execProtBit8 w s
  | .protBit9 w => Sys2Proof.Machine.execProtBit9 w s
  | .protBit10 w => Sys2Proof.Machine.execProtBit10 w s
  | .protBit11 w => Sys2Proof.Machine.execProtBit11 w s
  | .protBit12 w => Sys2Proof.Machine.execProtBit12 w s

end Sys2Proof.Machine
end

