-- ==== Sys2Proof/Machine/Step.lean ====
section
/-! DEFINITION. One step: present the next pending transaction to the block (00_scope.md R5, R11, R218). -/

namespace Sys2Proof.Machine

/-- Take the next transaction off the list and clear the output of the step before. -/
def State.present (s : State) (rest : List Txn) : State := { s with pending := rest, out := [] }

/-- One step. With nothing presented the block waits, in every phase, for as long as the host likes (R114; log
entry 3). -/
def step (s : State) : Host.Outcome State Fault Refusal :=
  if !s.cfg.valid then .refused .unsupportedConfig
  else
    match s.pending with
    | [] => .next (s.present [])
    | t :: rest =>
      match decode t with
      | .ok i => exec i (s.present rest)
      | .rejected e => .refused (.undecodable e)

/-- `s` with the transaction of a table word put first on the list of pending ones. -/
def State.withFetchWord (s : State) (nbits w : Nat) : State :=
  { s with pending := tableTxn nbits w :: s.pending }

end Sys2Proof.Machine
end

