-- ==== Sys2Proof/Machine/Render.lean ====
section
/-! DEFINITION. What the host makes of what it reads: physical values (42_extractor.md R160) and the output object
(44_record_readout.md R192 to R197; 70_reset_and_hazards.md R246). Host-side rules: no step of the block uses them. -/

namespace Sys2Proof.Machine

/-- A value of the output object: the exact rational num/den, or a string. -/
inductive JsonValue where
  | number (num : Int) (den : Nat)
  | text (s : String)
  deriving DecidableEq, Repr

/-- The host's output: the empty object, or one with members in order. -/
inductive HostObject where
  | empty
  | members (kvs : List (String × JsonValue))
  deriving DecidableEq, Repr

/-- Whether a status word lets the host use the record: bits 3 and 11 are both 1 (R246). -/
def statusUsable (status : Half) : Bool := status.getLsbD 3 && status.getLsbD 11

/-- Whether the host may use the record in a state (R246). -/
def State.recordUsable (s : State) : Bool := statusUsable s.status

/-- The label the host prints (R174, R196). A code without a string never occurs (R170). -/
def labelText (code : BitVec 4) : String := (label code).getD ""

/-- The success object: nine keys in this order (R194). `SCALE` is 1/100 but for the cycle count (R6, R160). -/
def successObject (r : Record) : HostObject :=
  .members
    [("Vmain", .number (sext r.vmain) 100),
     ("Imain", .number (sext r.imain) 100),
     ("RemainCap", .number (sext r.remcap) 100),
     ("NominalCap", .number (sext r.nomcap) 100),
     ("NumberCycles", .number (sext r.ncyc) 1),
     ("ProtectState", .number r.prot.toNat 1),
     ("ProtectStateBin", .text (String.ofList (bin16 r.prot))),
     ("SoC", .number r.soc.toNat 1),
     ("ProtectStateText", .text (labelText r.pcode))]

/-- The register indexes of the record, in the order of READREC (R56, R87). -/
def recordIndexes : List (BitVec 4) := [0x1#4, 0x2#4, 0x3#4, 0x4#4, 0x5#4, 0x6#4, 0x7#4, 0x8#4]

/-- The record in the words read at `recordIndexes` (R56). -/
def recordOfWords : List Half → Option Record
  | [vmain, imain, remcap, nomcap, ncyc, prot, soc, pcode] =>
    some { vmain, imain, remcap, nomcap, ncyc, prot, soc := soc.setWidth 8, pcode := pcode.setWidth 4 }
  | _ => none

/-- What the host outputs from a status word and the record words it read: the success object where the status lets it
use the record, otherwise the empty object (R192, R193, R246). -/
def hostObject (status : Half) (words : List Half) : HostObject :=
  if statusUsable status then
    match recordOfWords words with
    | some r => successObject r
    | none => .empty
  else .empty

/-- What the host outputs from the reads of a state. -/
def State.hostOutput (s : State) : HostObject := hostObject s.status (recordIndexes.map s.regMap)

/-- The exact value of a number member, over ℚ (R160, R195). -/
def JsonValue.rational : JsonValue → Option Rat
  | .number num den => some ((num : Rat) / (den : Rat))
  | .text _ => none

/-- The text of one value: numbers as `NUM_TEXT` spells them (R195), strings in double quotes. -/
def JsonValue.render (p : TextParams) : JsonValue → String
  | .number num den => p.numText num den
  | .text s => "\"" ++ s ++ "\""

/-- The text of one member, with the host's text on both sides of the colon. DESIGN CHOICE (log entry 15): the same
text for every member. -/
def renderMember (p : TextParams) (kv : String × JsonValue) : String :=
  "\"" ++ kv.1 ++ "\"" ++ p.beforeColon ++ ":" ++ p.afterKey ++ kv.2.render p

/-- The text of the output: the two characters of R193 for the empty object, else the members in order with the text
parameters the host chose, the text after the closing brace among them (R194, R195, R197). DESIGN CHOICE
(log entry 15): nothing stands before the opening brace of the success object, and the same text stands at every comma. -/
def HostObject.render (p : TextParams) : HostObject → String
  | .empty => "\x7b\x7d"
  | .members kvs =>
    "\x7b" ++ p.afterOpen ++ String.intercalate (p.beforeComma ++ "," ++ p.betweenMembers) (kvs.map (renderMember p))
      ++ p.beforeClose ++ "\x7d" ++ p.afterClose

end Sys2Proof.Machine
end

