-- ==== Sys2Proof/Machine/Script.lean ====
section
/-! DEFINITION. The transaction-script notation and its pseudo-transactions (30_encoding.md R86, R87). -/

namespace Sys2Proof.Machine

/-- A line of a script (R86). -/
inductive ScriptTxn where
  | reset
  | nop
  | start
  | timeout
  | chunk (bytes : List Byte)
  | ev (code : BitVec 3)
  | read (idx : BitVec 4)
  | reply (bytes : List Byte) (split : Nat)
  | readRec
  deriving DecidableEq, Repr

/-- The transactions of a line; REPLY needs a split inside its bytes (R87; log entry 17). The raw line EV presents its
code with an empty operand, the code 010 of CHUNK too: DESIGN CHOICE, R86 names no operand (log entry 21). -/
def ScriptTxn.expand : ScriptTxn → Option (List Txn)
  | .reset => some [encode .reset]
  | .nop => some [encode .nop]
  | .start => some [encode .start]
  | .timeout => some [encode .timeout]
  | .chunk bytes => some [encode (.chunk bytes)]
  | .ev code => some [eventTxn code []]
  | .read idx => some [encode (.read idx)]
  | .reply bytes split =>
    if split ≤ bytes.length then some [encode (.chunk (bytes.take split)), encode (.chunk (bytes.drop split))]
    else none
  | .readRec => some ((List.range 9).map (fun n => encode (.read (BitVec.ofNat 4 n))))

/-! ### Reading a line (log entry 20) -/

/-- The value of a decimal digit. -/
def decDigit (c : Char) : Option Nat :=
  if '0'.toNat ≤ c.toNat ∧ c.toNat ≤ '9'.toNat then some (c.toNat - '0'.toNat) else none

/-- The value of a hexadecimal digit, capital or small. -/
def hexDigit (c : Char) : Option Nat :=
  if 'A'.toNat ≤ c.toNat ∧ c.toNat ≤ 'F'.toNat then some (c.toNat - 'A'.toNat + 10)
  else if 'a'.toNat ≤ c.toNat ∧ c.toNat ≤ 'f'.toNat then some (c.toNat - 'a'.toNat + 10)
  else decDigit c

/-- A hex pair. -/
def hexPair : List Char → Option Byte
  | [a, b] =>
    match hexDigit a, hexDigit b with
    | some x, some y => some (BitVec.ofNat 8 (16 * x + y))
    | _, _ => none
  | _ => none

/-- All results, or none if one is missing. -/
def allSome {α : Type} : List (Option α) → Option (List α)
  | [] => some []
  | none :: _ => none
  | some a :: rest =>
    match allSome rest with
    | some as => some (a :: as)
    | none => none

/-- `bytes ::= "-" | hexpair { " " hexpair }`. -/
def readBytes : List (List Char) → Option (List Byte)
  | [] => none
  | [['-']] => some []
  | ws => allSome (ws.map hexPair)

/-- A decimal number of at least one digit. -/
def readDec (cs : List Char) : Option Nat :=
  match allSome (cs.map decDigit) with
  | some (d :: ds) => some ((d :: ds).foldl (fun acc x => acc * 10 + x) 0)
  | _ => none

/-- `reg` (R86), by the map of R56. -/
def readReg : List Char → Option (BitVec 4)
  | ['S', 'T', 'A', 'T', 'U', 'S'] => some 0x0#4
  | ['V', 'M', 'A', 'I', 'N'] => some 0x1#4
  | ['I', 'M', 'A', 'I', 'N'] => some 0x2#4
  | ['R', 'E', 'M', 'C', 'A', 'P'] => some 0x3#4
  | ['N', 'O', 'M', 'C', 'A', 'P'] => some 0x4#4
  | ['N', 'C', 'Y', 'C'] => some 0x5#4
  | ['P', 'R', 'O', 'T'] => some 0x6#4
  | ['S', 'O', 'C'] => some 0x7#4
  | ['P', 'C', 'O', 'D', 'E'] => some 0x8#4
  | ['0', 'x', d] =>
    match hexDigit d with
    | some n => some (BitVec.ofNat 4 n)
    | none => none
  | _ => none

/-- A bit of `EV`. -/
def readBit : List Char → Option (BitVec 1)
  | ['0'] => some 0#1
  | ['1'] => some 1#1
  | _ => none

/-- The words of a line, with `@` a word of its own; the second argument is the word being read, reversed. -/
def splitWords : List Char → List Char → List (List Char)
  | [], [] => []
  | [], w => [w.reverse]
  | c :: cs, w =>
    if c = ' ' then (if w = [] then splitWords cs [] else w.reverse :: splitWords cs [])
    else if c = '@' then (if w = [] then ['@'] :: splitWords cs [] else w.reverse :: ['@'] :: splitWords cs [])
    else splitWords cs (c :: w)

/-- REPLY's operands: bytes, `@`, a decimal number. -/
def readReply (ws : List (List Char)) : Option ScriptTxn :=
  match ws.reverse with
  | k :: ['@'] :: bs =>
    match readBytes bs.reverse, readDec k with
    | some bytes, some split => some (.reply bytes split)
    | _, _ => none
  | _ => none

/-- `txn` (R86). -/
def readTxn : List (List Char) → Option ScriptTxn
  | [['R', 'E', 'S', 'E', 'T']] => some .reset
  | [['N', 'O', 'P']] => some .nop
  | [['S', 'T', 'A', 'R', 'T']] => some .start
  | [['T', 'I', 'M', 'E', 'O', 'U', 'T']] => some .timeout
  | [['R', 'E', 'A', 'D', 'R', 'E', 'C']] => some .readRec
  | [['R', 'E', 'A', 'D'], r] =>
    match readReg r with
    | some idx => some (.read idx)
    | none => none
  | [['E', 'V'], a, b, c] =>
    match readBit a, readBit b, readBit c with
    | some x, some y, some z => some (.ev (x ++ y ++ z))
    | _, _, _ => none
  | ['C', 'H', 'U', 'N', 'K'] :: bs =>
    match readBytes bs with
    | some bytes => some (.chunk bytes)
    | none => none
  | ['R', 'E', 'P', 'L', 'Y'] :: ws => readReply ws
  | _ => none

/-- `line ::= [ txn ] [ ";" comment ]`: the transactions of a line, none where it is not in the notation. -/
def readLine (cs : List Char) : Option (List Txn) :=
  match splitWords (cs.takeWhile (fun c => c ≠ ';')) [] with
  | [] => some []
  | ws =>
    match readTxn ws with
    | some t => t.expand
    | none => none

/-- A script: its lines' transactions in order. -/
def readScript (lines : List (List Char)) : Option (List Txn) :=
  match allSome (lines.map readLine) with
  | some txns => some txns.flatten
  | none => none

end Sys2Proof.Machine
end

