-- ==== Sys2Proof/Machine/Poll.lean ====
section
/-! DEFINITION. The host's sequence of one poll (70_reset_and_hazards.md R243) and what it outputs (44_record_readout.md
R192, R193). Host-side rules: no step of the block uses them. Connecting and disconnecting belong to the transport link
(00_scope.md R4); of them only whether the device was reached is here. -/

namespace Sys2Proof.Machine

/-- What the transport hands the host in one receive step (R71). -/
inductive Delivery where
  | bytes (c : List Byte)
  | timedOut
  deriving DecidableEq, Repr

/-- The event of a delivery (R243 step 4). -/
def Delivery.event : Delivery → Instr
  | .bytes c => .chunk c
  | .timedOut => .timeout

/-- A poll as far as it has gone. -/
structure PollState where
  /-- The block; its `out` collects the requests to transmit (step 4). -/
  block : State
  /-- What the host has presented, oldest first. -/
  presented : List Txn
  /-- The words of the record registers read so far, oldest first. -/
  words : List Half
  /-- The output object; none while the host still waits for `DONE` (R114). -/
  output : Option HostObject
  deriving DecidableEq, Repr

/-- Go on with the result of an outcome, unless it is a stop. -/
def andThen {α β : Type} (o : Host.Outcome α Fault Refusal) (f : α → Host.Outcome β Fault Refusal) :
    Host.Outcome β Fault Refusal :=
  match o with
  | .next a => f a
  | .fault r => .fault r
  | .refused r => .refused r

/-- The host before its first move. -/
def beginPoll (s : State) : PollState := { block := s, presented := [], words := [], output := none }

/-- The host makes one move. -/
def PollState.present (i : Instr) (p : PollState) : Host.Outcome PollState Fault Refusal :=
  andThen (exec i p.block) (fun t => .next { p with block := t, presented := p.presented ++ [encode i] })

/-- Steps 3 and 4: the deliveries go to the block until `DONE` = 1. -/
def PollState.deliver : List Delivery → PollState → Host.Outcome PollState Fault Refusal
  | [], p => .next p
  | d :: ds, p => if p.block.done then .next p else andThen (p.present d.event) (PollState.deliver ds)

/-- Read registers, keeping the words. -/
def PollState.readWords : List (BitVec 4) → PollState → Host.Outcome PollState Fault Refusal
  | [], p => .next p
  | idx :: rest, p =>
    andThen (p.present (.read idx)) (fun q => PollState.readWords rest { q with words := q.words ++ [q.block.rdata] })

/-- Output the object that a status word and the words read since give. -/
def PollState.emitObject (status : Half) (p : PollState) : PollState :=
  { p with output := some (hostObject status p.words) }

/-- Step 5: `STATUS` is read first, and the record only where it may be used (R246). -/
def PollState.finish (p : PollState) : Host.Outcome PollState Fault Refusal :=
  if p.block.done then
    andThen (p.present (.read 0x0#4)) (fun q =>
      if statusUsable q.block.rdata then
        andThen (q.readWords recordIndexes) (fun r => .next (r.emitObject q.block.rdata))
      else .next (q.emitObject q.block.rdata))
  else .next p

/-- One poll (R243): reset; where the connect phase fails, the empty object and nothing more (R192, R214); else START,
the deliveries until `DONE` = 1, and the result. A host whose deliveries end before `DONE` has not finished (R114). -/
def poll (connected : Bool) (ds : List Delivery) (s : State) : Host.Outcome PollState Fault Refusal :=
  andThen ((beginPoll s).present .reset) (fun p =>
    if connected then
      andThen (p.present .start) (fun q => andThen (q.deliver ds) PollState.finish)
    else .next { p with output := some .empty })

end Sys2Proof.Machine
end

