-- ==== Sys2Proof/Safety.lean ====
section
/-! DEFINITION. The terms claims are stated in: the invariants of the block (10_state.md R35), the host's moves and
duties (70_reset_and_hazards.md R244), runs of operations, and when two states agree. -/

namespace Sys2Proof.Machine

/-! ### Invariants -/

/-- The nine invariants of R35, in its order. -/
abbrev State.sequencerInv (s : State) : Prop :=
  s.bufLen ≤ s.cfg.frameBufBytes
  ∧ (s.phase = .idle → s.attempt = 0#4 ∧ s.bufLen = 0)
  ∧ (s.phase ≠ .idle → 1 ≤ s.attempt.toNat ∧ s.attempt.toNat ≤ s.cfg.maxAttempts)
  ∧ (s.phase = .wait0 → s.bufLen = 0)
  ∧ (s.done = true → s.bufLen = 0)
  ∧ (s.recValid = true ↔ s.phase = .doneOk)
  ∧ (s.err ≠ .none ↔ s.phase = .doneFail)
  ∧ (s.phase = .doneFail ∧ s.err = .noResponse → s.attempt.toNat = s.cfg.maxAttempts)
  ∧ (s.recValid = false → s.regs = Record.cleared)

/-- The buffer is in canonical form and lists only indexes of `BUF` (R51), and `BUF_LEN` fits its register (R7). -/
abbrev State.bufferInv (s : State) : Prop :=
  s.buf.wf ∧ (∀ c ∈ s.buf, c.1 < s.cfg.frameBufBytes) ∧ s.bufLen < 2 ^ bufLenBits s.cfg

/-- The label code is that of the protection word, so 0xD and 0xE never occur (R82, R170). -/
abbrev State.labelInv (s : State) : Prop := s.regs.pcode = prio s.regs.prot

/-- The invariant every step keeps. -/
abbrev State.Inv (s : State) : Prop :=
  s.cfg.valid = true ∧ s.sequencerInv ∧ s.bufferInv ∧ s.labelInv

/-! ### The host's moves -/

end Sys2Proof.Machine

namespace Sys2Proof

/-- The moves of R244: events, reset and register reads. Every other transaction is an operation inside the block
(log entry 6). -/
def Txn.hostMove : Txn → Bool
  | .ports _ _ _ | .regport _ => true
  | .sendreq _ | .frame _ _ | .field _ _ | .prot _ => false

/-- The operations that are steps of the block: events and reset (R5). -/
def Instr.blockStep : Instr → Bool
  | .nop | .start | .chunk _ | .timeout | .reserved _ | .reset => true
  | .read _ | .sendreq | .startMarker _ | .term _ | .extVmain _ | .extImain _ | .extRemcap _ | .extNomcap _
  | .extNcyc _ | .extProt _ | .extSoc _ | .protOk _ | .protBit0 _ | .protBit1 _ | .protBit2 _ | .protBit3 _
  | .protBit4 _ | .protBit5 _ | .protBit6 _ | .protBit7 _ | .protBit8 _ | .protBit9 _ | .protBit10 _ | .protBit11 _
  | .protBit12 _ => false

/-- CHUNK or TIMEOUT: what the transport delivers to a waiting attempt (R113). -/
def Instr.delivery : Instr → Bool
  | .chunk _ | .timeout => true
  | .nop | .start | .reserved _ | .reset | .read _ | .sendreq | .startMarker _ | .term _ | .extVmain _ | .extImain _ | .extRemcap _ | .extNomcap _
  | .extNcyc _ | .extProt _ | .extSoc _ | .protOk _ | .protBit0 _ | .protBit1 _ | .protBit2 _ | .protBit3 _
  | .protBit4 _ | .protBit5 _ | .protBit6 _ | .protBit7 _ | .protBit8 _ | .protBit9 _ | .protBit10 _ | .protBit11 _
  | .protBit12 _ => false

end Sys2Proof

namespace Sys2Proof.Machine

/-- The events that the block ignores in the state's phase (R27, R107 to R110, R215). -/
def ignoredIn (i : Instr) (s : State) : Prop :=
  (i = .start ∧ s.phase.waiting = true)
  ∨ (((∃ d, i = .chunk d) ∨ i = .timeout) ∧ s.phase.waiting = false)
  ∨ (∃ low, i = .reserved low)

/-- A host that keeps the duty of R244 to reset the block before its first event. -/
def resetsFirst (ts : List Txn) : Bool :=
  match ts with
  | t :: rest => decide (decode t = .ok .reset) && rest.all Txn.hostMove
  | [] => true

/-! ### Runs -/

/-- Run operations one after the other, stopping at the first fault or refusal. `out` collects every output event of
the run, because `exec` appends to it and only `step` clears it. -/
def execAll : List Instr → State → Host.Outcome State Fault Refusal
  | [], s => .next s
  | i :: is, s =>
    match exec i s with
    | .next t => execAll is t
    | .fault r => .fault r
    | .refused r => .refused r

/-- A run inside one poll cycle: no reset, no request sent outside an attempt, and no START that the block accepts
(R12, R106, R113). -/
def staysInCycle : List Instr → State → Prop
  | [], _ => True
  | i :: is, s =>
    i ≠ .reset ∧ i ≠ .sendreq ∧ (i = .start → s.phase.waiting = true) ∧ ∀ t, exec i s = .next t → staysInCycle is t

/-! ### Agreement of states -/

/-- The registers and flags of R20, that is all of it but the bytes of `BUF`, are equal. -/
def State.sameControl (s t : State) : Prop :=
  s.phase = t.phase ∧ s.attempt = t.attempt ∧ s.bufLen = t.bufLen ∧ s.regs = t.regs ∧ s.recValid = t.recValid
  ∧ s.err = t.err ∧ s.ign = t.ign

/-- The model's own fields other than `out` are equal. -/
def State.sameOwn (s t : State) : Prop :=
  s.cfg = t.cfg ∧ s.pending = t.pending ∧ s.rdata = t.rdata ∧ s.matched = t.matched ∧ s.unitRec = t.unitRec

/-- Every byte of `BUF` reads the same. -/
def State.sameBuf (s t : State) : Prop := ∀ a, s.buf.read a = t.buf.read a

/-- All of R20 is equal. -/
def State.sameBlock (s t : State) : Prop := s.sameControl t ∧ s.sameBuf t

/-- Everything is equal except bytes of `BUF` at or above `BUF_LEN`, which no rule reads (R64). -/
def State.sameButStale (s t : State) : Prop :=
  s.sameControl t ∧ s.sameOwn t ∧ s.out = t.out ∧ ∀ a, a < s.bufLen → s.buf.read a = t.buf.read a

/-! ### What the rules say of one step, as relations -/

/-- The big-endian 16-bit value at a frame index (R52, R53). -/
def beWordAt (f : List Byte) (i : Nat) : Nat := 256 * (f.getD i 0#8).toNat + (f.getD (i + 1) 0#8).toNat

/-- The label code of a protection word: the highest-numbered set bit among 0..12, or 0xF where there is none
(R170). -/
def IsLabelCode (w : Half) (c : BitVec 4) : Prop :=
  (c = 0xF#4 ∧ ∀ n, n ≤ 12 → w.getLsbD n = false)
  ∨ ∃ n, n ≤ 12 ∧ c.toNat = n ∧ w.getLsbD n = true ∧ ∀ m, n < m → m ≤ 12 → w.getLsbD m = false

/-- The record of a frame, by the frame indexes of R78 and R84. -/
def IsRecordOf (f : List Byte) (r : Record) : Prop :=
  r.vmain.toNat = beWordAt f 4 ∧ r.imain.toNat = beWordAt f 6 ∧ r.remcap.toNat = beWordAt f 8
  ∧ r.nomcap.toNat = beWordAt f 10 ∧ r.ncyc.toNat = beWordAt f 12 ∧ r.prot.toNat = beWordAt f 20
  ∧ r.soc = f.getD 23 0#8 ∧ IsLabelCode r.prot r.pcode

/-- `BUF` after a chunk was stored at `BUF_LEN` (R54, R108): its bytes there, every other byte as before. -/
def ChunkStored (data : List Byte) (s t : State) : Prop :=
  ∀ a, t.buf.read a
    = if s.bufLen ≤ a ∧ a < s.bufLen + data.length then data.getD (a - s.bufLen) 0#8 else s.buf.read a

/-- What a failed attempt leaves, but for the bytes of `BUF` (R103, R212): the next attempt with its `SendReq`, or
`NoResponse` when the budget is used up. -/
def AttemptFailed (s t : State) : Prop :=
  (s.attempt.toNat < s.cfg.maxAttempts →
      t.phase = .wait0 ∧ t.attempt.toNat = s.attempt.toNat + 1 ∧ t.err = s.err
      ∧ t.out = s.out ++ [.sendReq [0xDD#8, 0xA5#8, 0x03#8, 0x00#8, 0xFF#8, 0xFD#8, 0x77#8]])
  ∧ (s.cfg.maxAttempts ≤ s.attempt.toNat →
      t.phase = .doneFail ∧ t.attempt = s.attempt ∧ t.err = .noResponse ∧ t.out = s.out)
  ∧ t.bufLen = 0 ∧ t.regs = s.regs ∧ t.recValid = s.recValid ∧ t.ign = s.ign ∧ s.sameOwn t

end Sys2Proof.Machine
end

