-- ==== Sys2Proof/Certificates/Slice0/Obligations.lean ====
section
/-! DEFINITION. The statements for the provers. Each docstring names the rule of spec/ it formalises, or says what it
rests on. -/

open Sys2Proof Sys2Proof.Machine

/-! ### Encoding and decoding -/

/-- Every well-formed operation is what its own transaction decodes to. -/
def Obligations.DecodeOfEncodeIsTheOperation : Prop :=
  ∀ i : Instr, i.wellFormed = true → decode (encode i) = .ok i

/-- The decoder answers well-formed operations only. -/
def Obligations.DecoderAnswersWellFormed : Prop :=
  ∀ (x : Txn) (i : Instr), decode x = .ok i → i.wellFormed = true

/-- The other direction: off the event port a transaction is the encoding of what it decodes to; on it, an event
other than CHUNK drops its operand and `RST` = 1 replaces the event. What an event other than CHUNK does with an
operand is in part the model's choice (log entry 2). -/
def Obligations.EncodeOfDecodeIsTheTransaction : Prop :=
  ∀ (x : Txn) (i : Instr), decode x = .ok i →
    match x with
    | .ports rst ev data =>
      encode i = if rst = 1#1 then .ports 1#1 0#3 [] else .ports 0#1 ev (if ev = 0b010#3 then data else [])
    | .regport _ | .sendreq _ | .frame _ _ | .field _ _ | .prot _ => encode i = x

/-- Words written out from the tables: R71, R75, R77, R132, R133, R177. -/
def Obligations.WordsOfTheTablesDecode : Prop :=
  decode (.ports 0#1 0b000#3 []) = .ok .nop
  ∧ decode (.ports 0#1 0b001#3 []) = .ok .start
  ∧ decode (.ports 0#1 0b010#3 [0x77#8]) = .ok (.chunk [0x77#8])
  ∧ decode (.ports 0#1 0b011#3 []) = .ok .timeout
  ∧ decode (.ports 0#1 0b110#3 [0x77#8]) = .ok (.reserved 0b10#2)
  ∧ decode (.ports 1#1 0b010#3 [0x77#8]) = .ok .reset
  ∧ decode (.regport 0xF#4) = .ok (.read 0xF#4)
  ∧ decode (.sendreq 0xDDA50300FFFD77#56) = .ok .sendreq
  ∧ decode (.frame .startMarker [0xDD#8, 0x03#8]) = .ok (.startMarker [0xDD#8, 0x03#8])
  ∧ decode (.frame .term [0x77#8]) = .ok (.term [0x77#8])
  ∧ decode (.field ⟨19, 23, 8, false⟩ ([0xDD#8, 0x03#8] ++ List.replicate 22 0#8 ++ [0x77#8]))
      = .ok (.extSoc ([0xDD#8, 0x03#8] ++ List.replicate 22 0#8 ++ [0x77#8]))
  ∧ decode (.prot 0xE880#16) = .ok (.protBit11 0xE880#16)

/-- R72 and R71: with `RST` = 0 every one of the eight codes is an event, 100 to 111 the reserved ones. That an operand
presented with NOP, START or TIMEOUT is dropped is the model's choice (log entry 2, DESIGN CHOICE); for the reserved
codes R71 and R110 say it. -/
def Obligations.EveryEventCodeDecodes : Prop :=
  ∀ (ev : BitVec 3) (data : List Byte),
    decode (.ports 0#1 ev data) =
      .ok (if ev.toNat = 0 then .nop else if ev.toNat = 1 then .start else if ev.toNat = 2 then .chunk data
           else if ev.toNat = 3 then .timeout else .reserved (BitVec.ofNat 2 (ev.toNat - 4)))

/-! ### Steps -/

/-- A step runs the operation that the presented transaction decodes to, on the state with that transaction taken off
the list and no output yet. That the transactions stand in a list of the state is the model's choice (log entry 1). -/
def Obligations.StepRunsTheDecodedOperation : Prop :=
  ∀ (s : State) (x : Txn) (rest : List Txn) (i : Instr),
    s.cfg.valid = true → s.pending = x :: rest → decode x = .ok i →
      step s = exec i { s with pending := rest, out := [] }

/-- R114: with nothing presented the block waits. That the wait is a step is the model's choice (log entry 3). -/
def Obligations.StepWithoutEventWaits : Prop :=
  ∀ s : State, s.cfg.valid = true → s.pending = [] → step s = .next { s with out := [] }

/-- When a step is refused: parameters outside R6, or a transaction that is no row of the table. The second never
happens on the host's ports (R88). Refusing is the model's choice of a stop (log entries 6 and 8). -/
def Obligations.StepRefusesOnlyBadParametersOrForeignWords : Prop :=
  ∀ (s : State) (r : Refusal), step s = .refused r →
    (r = .unsupportedConfig
      ∧ ¬ (1 ≤ s.cfg.maxAttempts ∧ s.cfg.maxAttempts ≤ 15 ∧ 25 ≤ s.cfg.frameBufBytes))
    ∨ ∃ x rest e, s.pending = x :: rest ∧ x.hostMove = false ∧ decode x = .rejected e ∧ r = .undecodable e

/-- R222, R221: whatever the host presents, in whatever state and phase, the step completes. -/
def Obligations.HostMovesAlwaysComplete : Prop :=
  ∀ (s : State) (x : Txn) (rest : List Txn),
    s.cfg.valid = true → s.pending = x :: rest → x.hostMove = true →
      ∃ t, step s = .next t ∧ t.pending = rest ∧ t.cfg = s.cfg

/-! ### Invariants -/

/-- R33 and R35: the reset state meets the invariant. -/
def Obligations.ResetStateMeetsTheInvariant : Prop := State.reset.Inv

/-- R35, as an inductive invariant: from every state that meets it, every step gives a state that meets it. -/
def Obligations.EveryStepKeepsTheInvariant : Prop :=
  ∀ s t : State, s.Inv → step s = .next t → t.Inv

/-- R35 of every run, from any state whatever: a host that resets the block first (R241, R244) and then presents
any of its moves in any order. -/
def Obligations.RunsThatResetFirstMeetR35 : Prop :=
  ∀ (s t : State) (n : Nat),
    s.cfg.valid = true → s.pending ≠ [] → resetsFirst s.pending = true →
      Host.Core.run Sys2Proof.core (n + 1) s = .next t → t.sequencerInv

/-! ### Events -/

/-- R105: the code 000 does nothing, in every phase. That it does so whatever operand is presented with it is the
model's choice (log entry 2, DESIGN CHOICE): R105 says that there is none. -/
def Obligations.NopChangesNothing : Prop :=
  ∀ (s : State) (data : List Byte), decode (.ports 0#1 0b000#3 data) = .ok .nop ∧ exec .nop s = .next s

/-- R107: the code 001 begins a cycle in `IDLE`, `DONE_OK` and `DONE_FAIL`, and in `WAIT0` and `WAIT1` only sets
`IGN`. That it does so whatever operand is presented with it is the model's choice (log entry 2, DESIGN CHOICE): R107
says that there is none. -/
def Obligations.StartBeginsACycleOrIsIgnored : Prop :=
  ∀ (s : State) (data : List Byte),
    decode (.ports 0#1 0b001#3 data) = .ok .start
    ∧ (s.phase = .wait0 ∨ s.phase = .wait1 → exec .start s = .next { s with ign := true })
    ∧ (s.phase = .idle ∨ s.phase = .doneOk ∨ s.phase = .doneFail →
        exec .start s = .next
          { s with
            phase := .wait0, attempt := 1#4, bufLen := 0, err := .none, recValid := false, ign := false
            regs := { vmain := 0#16, imain := 0#16, remcap := 0#16, nomcap := 0#16, ncyc := 0#16, prot := 0#16,
                      soc := 0#8, pcode := 0xF#4 }
            out := s.out ++ [.sendReq [0xDD#8, 0xA5#8, 0x03#8, 0x00#8, 0xFF#8, 0xFD#8, 0x77#8]] })

/-- R110: the codes 100 to 111, whatever operand is presented with them, only set `IGN`, in every phase. -/
def Obligations.ReservedCodesOnlySetIgn : Prop :=
  ∀ (s : State) (low : BitVec 2) (data : List Byte),
    decode (.ports 0#1 (1#1 ++ low) data) = .ok (.reserved low)
    ∧ exec (.reserved low) s = .next { s with ign := true }

/-- R108, the ignored case: a chunk for which no attempt is waiting only sets `IGN`. -/
def Obligations.ChunkOutsideAnAttemptOnlySetsIgn : Prop :=
  ∀ (s : State) (data : List Byte), s.phase = .idle ∨ s.phase = .doneOk ∨ s.phase = .doneFail →
    exec (.chunk data) s = .next { s with ign := true }

/-- R109 with R103: the code 011 fails the attempt that waits, and only sets `IGN` where none waits. That it does so
whatever operand is presented with it is the model's choice (log entry 2, DESIGN CHOICE): R109 says that there is none.
That the bytes of `BUF` stay although `BUF_LEN` becomes 0 is log entry 10 (DEDUCED). -/
def Obligations.TimeoutFailsTheAttemptOrIsIgnored : Prop :=
  ∀ (s : State) (data : List Byte), s.cfg.valid = true →
    decode (.ports 0#1 0b011#3 data) = .ok .timeout
    ∧ (s.phase = .wait0 ∨ s.phase = .wait1 → ∃ t, exec .timeout s = .next t ∧ AttemptFailed s t ∧ s.sameBuf t)
    ∧ (s.phase = .idle ∨ s.phase = .doneOk ∨ s.phase = .doneFail → exec .timeout s = .next { s with ign := true })

/-- R108 and D6: a chunk that would overflow the buffer stores nothing and fails the attempt, first chunk or
second. That the bytes of `BUF` stay although `BUF_LEN` becomes 0 is log entry 10 (DEDUCED). -/
def Obligations.OverflowingChunkStoresNothing : Prop :=
  ∀ (s : State) (data : List Byte),
    s.cfg.valid = true → s.phase = .wait0 ∨ s.phase = .wait1 → s.cfg.frameBufBytes < s.bufLen + data.length →
      ∃ t, exec (.chunk data) s = .next t ∧ AttemptFailed s t ∧ s.sameBuf t

/-- R108: the first chunk, of any length from 0 to what fits, is stored and not inspected (R112). The store goes to
the `data.length` bytes at `BUF_LEN`. -/
def Obligations.FirstChunkIsStored : Prop :=
  ∀ (s : State) (data : List Byte),
    s.buf.wf → s.phase = .wait0 → s.bufLen + data.length ≤ s.cfg.frameBufBytes →
      ∃ t, exec (.chunk data) s = .next t ∧ t.phase = .wait1 ∧ t.bufLen = s.bufLen + data.length
        ∧ ChunkStored data s t ∧ t.frame = s.frame ++ data
        ∧ t.attempt = s.attempt ∧ t.regs = s.regs ∧ t.recValid = s.recValid ∧ t.err = s.err ∧ t.ign = s.ign
        ∧ t.out = s.out ∧ s.sameOwn t

/-- R108: after a second chunk the last byte of the concatenation is not `TERM_BYTE`, or there is no byte: the
attempt fails. That the stored bytes are still in `BUF` although `BUF_LEN` has become 0 is log entry 10 (DEDUCED). -/
def Obligations.SecondChunkWithoutTerminatorFails : Prop :=
  ∀ (s : State) (data : List Byte),
    s.cfg.valid = true → s.buf.wf → s.phase = .wait1 → s.bufLen + data.length ≤ s.cfg.frameBufBytes →
      (s.frame ++ data).getLast? ≠ some 0x77#8 →
        ∃ t, exec (.chunk data) s = .next t ∧ AttemptFailed s t ∧ ChunkStored data s t

/-- R104 with R130 to R136 and R170: a second chunk that completes a valid frame gives `DONE_OK` and the record of
the frame, field by field from the frame indexes of R78. That the stored bytes are still in `BUF` although `BUF_LEN`
has become 0 is log entry 10 (DEDUCED). -/
def Obligations.SecondChunkDecodesTheFrame : Prop :=
  ∀ (s : State) (data : List Byte),
    s.buf.wf → s.phase = .wait1 → s.bufLen + data.length ≤ s.cfg.frameBufBytes →
      25 ≤ (s.frame ++ data).length → (s.frame ++ data)[0]? = some 0xDD#8 → (s.frame ++ data)[1]? = some 0x03#8 →
      (s.frame ++ data).getLast? = some 0x77#8 →
        ∃ t, exec (.chunk data) s = .next t ∧ t.phase = .doneOk ∧ t.recValid = true ∧ t.err = .none
          ∧ IsRecordOf (s.frame ++ data) t.regs
          ∧ t.bufLen = 0 ∧ ChunkStored data s t ∧ t.attempt = s.attempt ∧ t.ign = s.ign ∧ t.out = s.out
          ∧ s.sameOwn t

/-- R104, R213, R217: a second chunk that ends in `TERM_BYTE` but completes a frame too short or with a bad start
marker ends the cycle with `MalformedFrame`, on the last attempt too; nothing is retried and the record stays. That
the bytes that R108 and R54 stored are still in `BUF` although `BUF_LEN` has become 0 is log entry 10 (DEDUCED). -/
def Obligations.MalformedFrameIsFinal : Prop :=
  ∀ (s : State) (data : List Byte),
    s.buf.wf → s.phase = .wait1 → s.bufLen + data.length ≤ s.cfg.frameBufBytes →
      (s.frame ++ data).getLast? = some 0x77#8 →
      (s.frame ++ data).length < 25 ∨ (s.frame ++ data)[0]? ≠ some 0xDD#8 ∨ (s.frame ++ data)[1]? ≠ some 0x03#8 →
        ∃ t, exec (.chunk data) s = .next t ∧ t.phase = .doneFail ∧ t.err = .malformedFrame
          ∧ t.regs = s.regs ∧ t.recValid = s.recValid ∧ t.attempt = s.attempt ∧ t.out = s.out
          ∧ t.bufLen = 0 ∧ ChunkStored data s t ∧ t.ign = s.ign ∧ s.sameOwn t

/-- R240 with R33, and R218: `RST` = 1, whatever event stands beside it, resets every phase, and a chunk that comes
afterwards is ignored. What `BUF` holds is not stated. That the model's own fields stay is the model's choice (log
entry 16, DESIGN CHOICE). -/
def Obligations.ResetSetsTheResetValues : Prop :=
  ∀ (s : State) (ev : BitVec 3) (data : List Byte), decode (.ports 1#1 ev data) = .ok .reset
    ∧ ∃ t, exec .reset s = .next t
      ∧ t.phase = .idle ∧ t.attempt = 0#4 ∧ t.bufLen = 0
      ∧ t.regs.vmain = 0#16 ∧ t.regs.imain = 0#16 ∧ t.regs.remcap = 0#16 ∧ t.regs.nomcap = 0#16
      ∧ t.regs.ncyc = 0#16 ∧ t.regs.prot = 0#16 ∧ t.regs.soc = 0#8 ∧ t.regs.pcode = 0xF#4
      ∧ t.recValid = false ∧ t.err = .none ∧ t.ign = false ∧ t.status = 0x0000#16
      ∧ t.out = s.out ∧ s.sameOwn t
      ∧ ∀ c, exec (.chunk c) t = .next { t with ign := true }

/-! ### The sequencer as a whole -/

/-- R101: the phase moves only along the table's cells, whatever the operation. -/
def Obligations.PhaseMovesOnlyAlongTheTable : Prop :=
  ∀ (i : Instr) (s t : State), exec i s = .next t → t.phase ≠ s.phase →
    (i = .reset ∧ t.phase = .idle)
    ∨ (i = .start ∧ s.phase.waiting = false ∧ t.phase = .wait0)
    ∨ (i.delivery = true ∧ s.phase.waiting = true ∧ (t.phase = .wait0 ∨ t.phase = .doneFail))
    ∨ ((∃ d, i = .chunk d) ∧ s.phase = .wait0 ∧ t.phase = .wait1)
    ∨ ((∃ d, i = .chunk d) ∧ s.phase = .wait1 ∧ t.phase = .doneOk)

/-- R220: `DONE_OK` and `DONE_FAIL` are left through START or reset only. -/
def Obligations.DoneIsLeftByStartOrResetOnly : Prop :=
  ∀ (i : Instr) (s t : State), s.done = true → exec i s = .next t → t.phase ≠ s.phase → i = .start ∨ i = .reset

/-- R24: the record registers are written whole by a completed frame, cleared by an accepted START and by reset, and
at no other time. -/
def Obligations.RecordIsWrittenByCompleteStartAndResetOnly : Prop :=
  ∀ (i : Instr) (s t : State), s.buf.wf → exec i s = .next t → t.regs ≠ s.regs →
    (∃ d, i = .chunk d ∧ s.phase = .wait1 ∧ t.phase = .doneOk ∧ IsRecordOf (s.frame ++ d) t.regs)
    ∨ (i = .start ∧ s.phase.waiting = false ∧ t.regs = Record.cleared)
    ∨ (i = .reset ∧ t.regs = Record.cleared)

/-- R51: only CHUNK writes `BUF` (and reset, after which `BUF` is unspecified), at `BUF_LEN` and within the
capacity. That START and TIMEOUT, which set `BUF_LEN` to 0, leave the bytes is log entry 10 (DEDUCED). -/
def Obligations.OnlyChunkWritesTheBuffer : Prop :=
  ∀ (i : Instr) (s t : State), s.buf.wf → exec i s = .next t → ¬ s.sameBuf t →
    i = .reset
    ∨ ∃ d, i = .chunk d ∧ s.phase.waiting = true ∧ s.bufLen + d.length ≤ s.cfg.frameBufBytes ∧ ChunkStored d s t

/-- R27: `IGN` is cleared by an accepted START and by reset only, it is set by every ignored event and by nothing
else, and it changes nothing: with another value of `IGN` every operation does the same to all else, but that a READ
of `STATUS` shows it. -/
def Obligations.IgnIsStickyAndInert : Prop :=
  ∀ (i : Instr) (s t : State), exec i s = .next t →
    (s.ign = true → t.ign = false → i = .reset ∨ (i = .start ∧ s.phase.waiting = false))
    ∧ (ignoredIn i s → t.ign = true)
    ∧ (s.ign = false → t.ign = true → ignoredIn i s)
    ∧ (i ≠ .read 0x0#4 → ∀ b, ∃ b', exec i { s with ign := b } = .next { t with ign := b' })

/-- R76: a step of the block emits `SendReq(REQ)` exactly when it starts an attempt, and nothing else. -/
def Obligations.SendReqExactlyWhenAnAttemptStarts : Prop :=
  ∀ (i : Instr) (s t : State), i.blockStep = true → exec i s = .next t →
    (t.out = s.out ++ [.sendReq [0xDD#8, 0xA5#8, 0x03#8, 0x00#8, 0xFF#8, 0xFD#8, 0x77#8]]
      ∧ t.phase = .wait0 ∧ t.bufLen = 0 ∧ (s.phase ≠ .wait0 ∨ t.attempt ≠ s.attempt))
    ∨ (t.out = s.out ∧ ¬ (t.phase = .wait0 ∧ (s.phase ≠ .wait0 ∨ t.attempt ≠ s.attempt)))

/-- R212: entering `DONE_FAIL` writes `ERR` and `PHASE`, leaves `ATTEMPT`, and finds the record cleared, `REC_VALID`
0 and `BUF_LEN` 0. The bytes of `BUF`, into which a CHUNK may have stored, are the matter of
`Obligations.OnlyChunkWritesTheBuffer`. -/
def Obligations.ErrorEntryWritesErrAndPhase : Prop :=
  ∀ (i : Instr) (s t : State), s.Inv → exec i s = .next t → s.phase ≠ .doneFail → t.phase = .doneFail →
    (t.err = .noResponse ∨ t.err = .malformedFrame) ∧ t.recValid = false ∧ t.regs = Record.cleared
    ∧ t.attempt = s.attempt ∧ t.bufLen = 0 ∧ t.ign = s.ign ∧ t.out = s.out ∧ s.sameOwn t

/-- R211: `NoResponse` is raised when an attempt fails with `ATTEMPT` = `MAX_ATTEMPTS`: by a TIMEOUT, by a chunk that
would overflow, or by a second chunk after which the frame does not end in `TERM_BYTE`. -/
def Obligations.NoResponseMeansTheLastAttemptFailed : Prop :=
  ∀ (i : Instr) (s t : State), s.Inv → exec i s = .next t → t.err = .noResponse → s.err ≠ .noResponse →
    s.attempt.toNat = s.cfg.maxAttempts ∧ s.phase.waiting = true
    ∧ (i = .timeout
      ∨ ∃ d, i = .chunk d ∧ (s.cfg.frameBufBytes < s.bufLen + d.length
          ∨ (s.phase = .wait1 ∧ (s.frame ++ d).getLast? ≠ some 0x77#8)))

/-- R139 and R213: on the block a `MalformedFrame` means a frame that ends in `TERM_BYTE` and is too short or has a
bad start marker. -/
def Obligations.MalformedFrameMeansShortOrBadMarker : Prop :=
  ∀ (i : Instr) (s t : State), s.buf.wf → exec i s = .next t → t.err = .malformedFrame →
    s.err ≠ .malformedFrame →
      ∃ d, i = .chunk d ∧ s.phase = .wait1 ∧ (s.frame ++ d).getLast? = some 0x77#8
        ∧ ((s.frame ++ d).length < 25 ∨ (s.frame ++ d)[0]? ≠ some 0xDD#8 ∨ (s.frame ++ d)[1]? ≠ some 0x03#8)

/-- R106: in one poll cycle the number of `SendReq` emitted is the number of the current attempt, at most
`MAX_ATTEMPTS`. -/
def Obligations.RequestsOfACycleStayInTheBudget : Prop :=
  ∀ (ops : List Instr) (s t : State),
    s.Inv → s.phase.waiting = false → staysInCycle ops s.newCycle → execAll (.start :: ops) s = .next t →
      t.out.length = s.out.length + t.attempt.toNat ∧ t.attempt.toNat ≤ s.cfg.maxAttempts
      ∧ (t.err = .noResponse → t.attempt.toNat = s.cfg.maxAttempts)

/-- R113: a cycle in which `2 * MAX_ATTEMPTS` CHUNK or TIMEOUT events have come has ended. -/
def Obligations.CycleEndsWithinTwiceTheBudget : Prop :=
  ∀ (ops : List Instr) (s t : State),
    s.Inv → s.phase.waiting = false → staysInCycle ops s.newCycle → execAll (.start :: ops) s = .next t →
      2 * s.cfg.maxAttempts ≤ ops.countP Instr.delivery → t.done = true

/-- R79 and R112: where the two chunks of a reply are split makes no difference to anything. -/
def Obligations.SplitPointOfAReplyIsInvisible : Prop :=
  ∀ (s : State) (reply : List Byte) (j k : Nat),
    s.Inv → s.phase = .wait0 → reply.length ≤ s.cfg.frameBufBytes →
      ∃ t u, execAll [.chunk (reply.take j), .chunk (reply.drop j)] s = .next t
        ∧ execAll [.chunk (reply.take k), .chunk (reply.drop k)] s = .next u
        ∧ t.sameBlock u ∧ t.out = u.out ∧ t.sameOwn u

/-- R64: bytes of `BUF` at or above `BUF_LEN` are never read: two states that differ only there step to states that
differ only there. -/
def Obligations.StaleBufferBytesAreNeverRead : Prop :=
  ∀ s s' t : State, s.buf.wf → s'.buf.wf → s.sameButStale s' → step s = .next t →
    ∃ t', step s' = .next t' ∧ t.sameButStale t'

/-- R191, R59, R244: register reads and the operations that stand inside an event step change no element of R20. That
the latter run on their own, on latches of the model, is the model's choice (log entry 6). -/
def Obligations.ReadsAndUnitOperationsLeaveTheBlockAlone : Prop :=
  ∀ (i : Instr) (s t : State), i.blockStep = false → exec i s = .next t →
    t.sameBlock s ∧ t.buf = s.buf ∧ t.cfg = s.cfg ∧ t.pending = s.pending ∧ (i ≠ .sendreq → t.out = s.out)

/-! ### The frame validator and the extractor -/

/-- R137: when `DecodeFn` gives `MalformedFrame`, on every byte string. -/
def Obligations.DecodeFnRejectsExactlyMalformedFrames : Prop :=
  ∀ f : List Byte,
    decodeFn f = .malformedFrame ↔
      (f.length < 25 ∨ f[0]? ≠ some 0xDD#8 ∨ f[1]? ≠ some 0x03#8 ∨ f[f.length - 1]? ≠ some 0x77#8)

/-- R136 with R150 and R153 to R159: what `DecodeFn` gives for a frame it accepts. -/
def Obligations.DecodeFnExtractsTheFields : Prop :=
  ∀ (f : List Byte) (r : Record), decodeFn f = .ok r → IsRecordOf f r

/-- R85: the bytes 2, 3, 14 to 19, 22 and 24 to L-2 change no outcome. -/
def Obligations.UndecodedBytesChangeNothing : Prop :=
  ∀ f g : List Byte, f.length = g.length →
    (∀ i, i < f.length →
      f.getD i 0#8 = g.getD i 0#8 ∨ i = 2 ∨ i = 3 ∨ (14 ≤ i ∧ i ≤ 19) ∨ i = 22 ∨ (24 ≤ i ∧ i + 2 ≤ f.length)) →
      decodeFn f = decodeFn g

/-- R53: `MemRead` of one and two bytes, and the two-byte view is the two one-byte views; no value past `BUF_LEN`. -/
def Obligations.MemReadIsBigEndian : Prop :=
  ∀ (s : State) (a : Nat),
    (a + 1 ≤ s.bufLen → s.memRead a 1 = some (s.buf.read a).toNat)
    ∧ (a + 2 ≤ s.bufLen →
        s.memRead a 2 = some ((s.buf.read a).toNat * 256 + (s.buf.read (a + 1)).toNat)
        ∧ ∃ x y, s.memRead a 1 = some x ∧ s.memRead (a + 1) 1 = some y ∧ s.memRead a 2 = some (x * 256 + y))
    ∧ ∀ n, s.bufLen < a + n → s.memRead a n = none

/-- R150: on the block `BE16(f, o)` is `MemRead(4+o, 2)` and `FieldU8(f, o)` is `MemRead(4+o, 1)`. -/
def Obligations.ExtractorsReadTheBuffer : Prop :=
  ∀ (s : State) (o : Nat),
    (4 + o + 2 ≤ s.bufLen → s.memRead (4 + o) 2 = some (fieldU16 s.frame o).toNat)
    ∧ (4 + o + 1 ≤ s.bufLen → s.memRead (4 + o) 1 = some (fieldU8 s.frame o).toNat)

/-- R54 and the canonical form of `BUF`: a stored string is read back at its addresses, every other byte is as
before, and the form is kept. -/
def Obligations.StoredBytesReadBack : Prop :=
  ∀ (m : Memory) (a a' : Nat) (c : List Byte), m.wf →
    (m.writeBytes a c).wf
    ∧ (m.writeBytes a c).read a' = if a ≤ a' ∧ a' < a + c.length then c.getD (a' - a) 0#8 else m.read a'

/-- R151: `sext_16` is the value in -32768..32767 that is the pattern modulo 65536. -/
def Obligations.SignedValueIsTwosComplement : Prop :=
  ∀ p : Half,
    sext p = (if p.toNat < 0x8000 then (p.toNat : Int) else (p.toNat : Int) - 65536)
    ∧ -32768 ≤ sext p ∧ sext p ≤ 32767

/-- R153 to R159: every extractor completes on a frame that holds its bytes and writes its field of the working
record, and nothing else. The working record as a latch is the model's choice (log entry 6). -/
def Obligations.ExtractorsCompleteOnTheirBytes : Prop :=
  ∀ (f : List Byte) (s : State),
    (6 ≤ f.length → exec (.extVmain f) s =
      .next { s with unitRec := { s.unitRec with vmain := BitVec.ofNat 16 (beWordAt f 4) } })
    ∧ (8 ≤ f.length → exec (.extImain f) s =
      .next { s with unitRec := { s.unitRec with imain := BitVec.ofNat 16 (beWordAt f 6) } })
    ∧ (10 ≤ f.length → exec (.extRemcap f) s =
      .next { s with unitRec := { s.unitRec with remcap := BitVec.ofNat 16 (beWordAt f 8) } })
    ∧ (12 ≤ f.length → exec (.extNomcap f) s =
      .next { s with unitRec := { s.unitRec with nomcap := BitVec.ofNat 16 (beWordAt f 10) } })
    ∧ (14 ≤ f.length → exec (.extNcyc f) s =
      .next { s with unitRec := { s.unitRec with ncyc := BitVec.ofNat 16 (beWordAt f 12) } })
    ∧ (22 ≤ f.length → exec (.extProt f) s =
      .next { s with unitRec := { s.unitRec with prot := BitVec.ofNat 16 (beWordAt f 20) } })
    ∧ (24 ≤ f.length → exec (.extSoc f) s =
      .next { s with unitRec := { s.unitRec with soc := f.getD 23 0#8 } })

/-- The model's choice (log entry 7): an extractor given a string that lacks a byte of its field stops, since R53
gives such a read no value. -/
def Obligations.ExtractorsStopPastTheFrame : Prop :=
  ∀ (f : List Byte) (s : State),
    (f.length < 6 → exec (.extVmain f) s = .fault .readPastFrame)
    ∧ (f.length < 8 → exec (.extImain f) s = .fault .readPastFrame)
    ∧ (f.length < 10 → exec (.extRemcap f) s = .fault .readPastFrame)
    ∧ (f.length < 12 → exec (.extNomcap f) s = .fault .readPastFrame)
    ∧ (f.length < 14 → exec (.extNcyc f) s = .fault .readPastFrame)
    ∧ (f.length < 22 → exec (.extProt f) s = .fault .readPastFrame)
    ∧ (f.length < 24 → exec (.extSoc f) s = .fault .readPastFrame)

/-- R132 and R133: the two frame patterns as unit operations; their latch is the model's choice (log entry 6). -/
def Obligations.FrameTestsComplete : Prop :=
  ∀ (f : List Byte) (s : State),
    exec (.startMarker f) s
      = .next { s with matched := decide (f[0]? = some 0xDD#8 ∧ f[1]? = some 0x03#8) }
    ∧ exec (.term f) s
      = .next { s with matched := decide (0 < f.length ∧ f[f.length - 1]? = some 0x77#8) }

/-- R76 and R77: SENDREQ puts the seven bytes of `REQ` on the output interface. That it runs on its own is the model's
choice (log entry 6). -/
def Obligations.SendreqEmitsTheRequest : Prop :=
  ∀ s : State, exec .sendreq s =
    .next { s with out := s.out ++ [.sendReq [0xDD#8, 0xA5#8, 0x03#8, 0x00#8, 0xFF#8, 0xFD#8, 0x77#8]] }

/-- R136: the unit operations, run one after the other on a frame that passes the validator and ending with the
protection row of its protection word, build the record `DecodeFn` gives. The working record as a latch is the model's
choice (log entry 6). -/
def Obligations.UnitOperationsBuildTheRecord : Prop :=
  ∀ (f : List Byte) (s : State), validFrame f = true →
    ∃ row t r, decode (.prot (fieldU16 f 16)) = .ok row
      ∧ execAll [.startMarker f, .term f, .extVmain f, .extImain f, .extRemcap f, .extNomcap f, .extNcyc f,
          .extProt f, .extSoc f, row] s = .next t
      ∧ decodeFn f = .ok r ∧ t = { s with matched := true, unitRec := r }

/-! ### The protection state encoder -/

/-- R170: the highest-numbered set bit among 0..12, or 0xF. -/
def Obligations.PrioIsTheHighestSetBit : Prop := ∀ w : Half, IsLabelCode w (prio w)

/-- R171: the priority encoder equals the ascending scan in which later assignments overwrite earlier ones. -/
def Obligations.PrioEqualsTheScan : Prop := ∀ w : Half, prio w = prioScan w

/-- R172: "ok" exactly when bits 0..12 are 0, whatever bits 13..15 hold. -/
def Obligations.LabelIsOkExactlyWithoutFaultBits : Prop :=
  ∀ w : Half, prio w = 0xF#4 ↔ w &&& 0x1FFF#16 = 0#16

/-- R177: exactly one of the 14 rows applies to each word, and its code is `Prio`. -/
def Obligations.ExactlyOneProtectionRowApplies : Prop :=
  ∀ w : Half, (∃ r ∈ protRows, r.applies w = true ∧ r.code = prio w)
    ∧ ∀ q ∈ protRows, ∀ r ∈ protRows, q.applies w = true → r.applies w = true → q = r

/-- R177 as operations: a row given a word it applies to completes and writes its code as the working record's
`PCODE`, and nothing else. The working record as a latch is the model's choice (log entry 6). -/
def Obligations.ProtectionRowsComplete : Prop :=
  ∀ (w : Half) (s : State),
    (w &&& 0x1FFF#16 = 0x0000#16 → exec (.protOk w) s = .next { s with unitRec := { s.unitRec with pcode := 0xF#4 } })
    ∧ (w &&& 0x1FFF#16 = 0x0001#16 →
        exec (.protBit0 w) s = .next { s with unitRec := { s.unitRec with pcode := 0x0#4 } })
    ∧ (w &&& 0x1FFE#16 = 0x0002#16 →
        exec (.protBit1 w) s = .next { s with unitRec := { s.unitRec with pcode := 0x1#4 } })
    ∧ (w &&& 0x1FFC#16 = 0x0004#16 →
        exec (.protBit2 w) s = .next { s with unitRec := { s.unitRec with pcode := 0x2#4 } })
    ∧ (w &&& 0x1FF8#16 = 0x0008#16 →
        exec (.protBit3 w) s = .next { s with unitRec := { s.unitRec with pcode := 0x3#4 } })
    ∧ (w &&& 0x1FF0#16 = 0x0010#16 →
        exec (.protBit4 w) s = .next { s with unitRec := { s.unitRec with pcode := 0x4#4 } })
    ∧ (w &&& 0x1FE0#16 = 0x0020#16 →
        exec (.protBit5 w) s = .next { s with unitRec := { s.unitRec with pcode := 0x5#4 } })
    ∧ (w &&& 0x1FC0#16 = 0x0040#16 →
        exec (.protBit6 w) s = .next { s with unitRec := { s.unitRec with pcode := 0x6#4 } })
    ∧ (w &&& 0x1F80#16 = 0x0080#16 →
        exec (.protBit7 w) s = .next { s with unitRec := { s.unitRec with pcode := 0x7#4 } })
    ∧ (w &&& 0x1F00#16 = 0x0100#16 →
        exec (.protBit8 w) s = .next { s with unitRec := { s.unitRec with pcode := 0x8#4 } })
    ∧ (w &&& 0x1E00#16 = 0x0200#16 →
        exec (.protBit9 w) s = .next { s with unitRec := { s.unitRec with pcode := 0x9#4 } })
    ∧ (w &&& 0x1C00#16 = 0x0400#16 →
        exec (.protBit10 w) s = .next { s with unitRec := { s.unitRec with pcode := 0xA#4 } })
    ∧ (w &&& 0x1800#16 = 0x0800#16 →
        exec (.protBit11 w) s = .next { s with unitRec := { s.unitRec with pcode := 0xB#4 } })
    ∧ (w &&& 0x1000#16 = 0x1000#16 →
        exec (.protBit12 w) s = .next { s with unitRec := { s.unitRec with pcode := 0xC#4 } })

/-- R170, R177: presenting a protection word runs the row that applies to it, and the working record's `PCODE`
becomes the word's label code. That a word is presented on its own is the model's choice (log entry 6). -/
def Obligations.ProtectionWordRunsThePriorityEncoder : Prop :=
  ∀ (w : Half) (s : State), s.cfg.valid = true → s.pending = [.prot w] →
    ∃ t, step s = .next t ∧ IsLabelCode w t.unitRec.pcode ∧ t.sameBlock s
      ∧ t.unitRec = { s.unitRec with pcode := t.unitRec.pcode }

/-- R175: `Bin16` has 16 characters, bit 15 first. -/
def Obligations.Bin16ShowsBitFifteenFirst : Prop :=
  ∀ w : Half, (bin16 w).length = 16
    ∧ ∀ k, k ≤ 15 → (bin16 w)[k]? = some (if w.getLsbD (15 - k) then '1' else '0')

/-! ### Register reads and the host's view -/

/-- R56 and R190: what a READ of each index gives; no other effect. -/
def Obligations.ReadGivesTheMappedRegister : Prop :=
  ∀ s : State,
    exec (.read 0x0#4) s = .next { s with rdata := s.status }
    ∧ exec (.read 0x1#4) s = .next { s with rdata := s.regs.vmain }
    ∧ exec (.read 0x2#4) s = .next { s with rdata := s.regs.imain }
    ∧ exec (.read 0x3#4) s = .next { s with rdata := s.regs.remcap }
    ∧ exec (.read 0x4#4) s = .next { s with rdata := s.regs.nomcap }
    ∧ exec (.read 0x5#4) s = .next { s with rdata := s.regs.ncyc }
    ∧ exec (.read 0x6#4) s = .next { s with rdata := s.regs.prot }
    ∧ exec (.read 0x7#4) s = .next { s with rdata := BitVec.ofNat 16 s.regs.soc.toNat }
    ∧ exec (.read 0x8#4) s = .next { s with rdata := BitVec.ofNat 16 s.regs.pcode.toNat }
    ∧ ∀ idx : BitVec 4, 9 ≤ idx.toNat → exec (.read idx) s = .next { s with rdata := 0x0000#16 }

/-- R31: the layout of `STATUS`, bit field by bit field. -/
def Obligations.StatusWordLayout : Prop :=
  ∀ s : State,
    s.status.extractLsb' 0 3 = (match s.phase with
      | .idle => 0#3 | .wait0 => 1#3 | .wait1 => 2#3 | .doneOk => 3#3 | .doneFail => 4#3)
    ∧ s.status.getLsbD 3 = decide (s.phase = .doneOk ∨ s.phase = .doneFail)
    ∧ s.status.extractLsb' 4 4 = s.attempt
    ∧ s.status.extractLsb' 8 2 = (match s.err with | .none => 0#2 | .noResponse => 1#2 | .malformedFrame => 2#2)
    ∧ s.status.getLsbD 10 = s.ign
    ∧ s.status.getLsbD 11 = s.recValid
    ∧ s.status.extractLsb' 12 4 = 0#4

/-- R246 with R25: `STATUS` bits 3 and 11 are both 1 exactly in `DONE_OK`. -/
def Obligations.RecordIsUsableExactlyInDoneOk : Prop :=
  ∀ s : State, s.Inv → (s.recordUsable = true ↔ s.phase = .doneOk)

/-- R192 to R196 and R246: what the host outputs from the reads of a state is the object of nine members in this order
in `DONE_OK` and the empty one in every other phase. R243 with R192: a poll completes, with the empty object where the
connect phase fails, and else with the output of the state it ends in if that has `DONE` = 1 and none so far if not. -/
def Obligations.HostOutputOfACycle : Prop :=
  ∀ s : State, s.Inv →
    (s.phase ≠ .doneOk → s.hostOutput = .empty)
    ∧ (s.phase = .doneOk → ∃ l, label s.regs.pcode = some l ∧
        s.hostOutput = .members
          [("Vmain", .number (sext s.regs.vmain) 100), ("Imain", .number (sext s.regs.imain) 100),
           ("RemainCap", .number (sext s.regs.remcap) 100), ("NominalCap", .number (sext s.regs.nomcap) 100),
           ("NumberCycles", .number (sext s.regs.ncyc) 1), ("ProtectState", .number s.regs.prot.toNat 1),
           ("ProtectStateBin", .text (String.ofList (bin16 s.regs.prot))), ("SoC", .number s.regs.soc.toNat 1),
           ("ProtectStateText", .text l)])
    ∧ ∀ (connected : Bool) (ds : List Delivery), ∃ p, poll connected ds s = .next p
        ∧ p.output = if connected then (if p.block.done then some p.block.hostOutput else none) else some .empty
end

