-- ==== Sys2Proof/Laws/State.lean ====
section
/-! SUPPORT. One lemma per field per update of the state, so that no later proof unfolds a record update. -/

namespace Sys2Proof.Machine

/-! ### `storeChunk` -/

@[simp] theorem State.storeChunk_phase (s : State) (data : List Byte) : (s.storeChunk data).phase = s.phase := rfl
@[simp] theorem State.storeChunk_attempt (s : State) (data : List Byte) : (s.storeChunk data).attempt = s.attempt := rfl
@[simp] theorem State.storeChunk_buf (s : State) (data : List Byte) : (s.storeChunk data).buf = s.buf.writeBytes s.bufLen data := rfl
@[simp] theorem State.storeChunk_bufLen (s : State) (data : List Byte) : (s.storeChunk data).bufLen = s.bufLen + data.length := rfl
@[simp] theorem State.storeChunk_regs (s : State) (data : List Byte) : (s.storeChunk data).regs = s.regs := rfl
@[simp] theorem State.storeChunk_recValid (s : State) (data : List Byte) : (s.storeChunk data).recValid = s.recValid := rfl
@[simp] theorem State.storeChunk_err (s : State) (data : List Byte) : (s.storeChunk data).err = s.err := rfl
@[simp] theorem State.storeChunk_ign (s : State) (data : List Byte) : (s.storeChunk data).ign = s.ign := rfl
@[simp] theorem State.storeChunk_cfg (s : State) (data : List Byte) : (s.storeChunk data).cfg = s.cfg := rfl
@[simp] theorem State.storeChunk_pending (s : State) (data : List Byte) : (s.storeChunk data).pending = s.pending := rfl
@[simp] theorem State.storeChunk_out (s : State) (data : List Byte) : (s.storeChunk data).out = s.out := rfl
@[simp] theorem State.storeChunk_rdata (s : State) (data : List Byte) : (s.storeChunk data).rdata = s.rdata := rfl
@[simp] theorem State.storeChunk_matched (s : State) (data : List Byte) : (s.storeChunk data).matched = s.matched := rfl
@[simp] theorem State.storeChunk_unitRec (s : State) (data : List Byte) : (s.storeChunk data).unitRec = s.unitRec := rfl

/-! ### `awaitSecond` -/

@[simp] theorem State.awaitSecond_phase (s : State) : s.awaitSecond.phase = .wait1 := rfl
@[simp] theorem State.awaitSecond_attempt (s : State) : s.awaitSecond.attempt = s.attempt := rfl
@[simp] theorem State.awaitSecond_buf (s : State) : s.awaitSecond.buf = s.buf := rfl
@[simp] theorem State.awaitSecond_bufLen (s : State) : s.awaitSecond.bufLen = s.bufLen := rfl
@[simp] theorem State.awaitSecond_regs (s : State) : s.awaitSecond.regs = s.regs := rfl
@[simp] theorem State.awaitSecond_recValid (s : State) : s.awaitSecond.recValid = s.recValid := rfl
@[simp] theorem State.awaitSecond_err (s : State) : s.awaitSecond.err = s.err := rfl
@[simp] theorem State.awaitSecond_ign (s : State) : s.awaitSecond.ign = s.ign := rfl
@[simp] theorem State.awaitSecond_cfg (s : State) : s.awaitSecond.cfg = s.cfg := rfl
@[simp] theorem State.awaitSecond_pending (s : State) : s.awaitSecond.pending = s.pending := rfl
@[simp] theorem State.awaitSecond_out (s : State) : s.awaitSecond.out = s.out := rfl
@[simp] theorem State.awaitSecond_rdata (s : State) : s.awaitSecond.rdata = s.rdata := rfl
@[simp] theorem State.awaitSecond_matched (s : State) : s.awaitSecond.matched = s.matched := rfl
@[simp] theorem State.awaitSecond_unitRec (s : State) : s.awaitSecond.unitRec = s.unitRec := rfl

/-! ### `emitRequest` -/

@[simp] theorem State.emitRequest_phase (s : State) : s.emitRequest.phase = s.phase := rfl
@[simp] theorem State.emitRequest_attempt (s : State) : s.emitRequest.attempt = s.attempt := rfl
@[simp] theorem State.emitRequest_buf (s : State) : s.emitRequest.buf = s.buf := rfl
@[simp] theorem State.emitRequest_bufLen (s : State) : s.emitRequest.bufLen = s.bufLen := rfl
@[simp] theorem State.emitRequest_regs (s : State) : s.emitRequest.regs = s.regs := rfl
@[simp] theorem State.emitRequest_recValid (s : State) : s.emitRequest.recValid = s.recValid := rfl
@[simp] theorem State.emitRequest_err (s : State) : s.emitRequest.err = s.err := rfl
@[simp] theorem State.emitRequest_ign (s : State) : s.emitRequest.ign = s.ign := rfl
@[simp] theorem State.emitRequest_cfg (s : State) : s.emitRequest.cfg = s.cfg := rfl
@[simp] theorem State.emitRequest_pending (s : State) : s.emitRequest.pending = s.pending := rfl
@[simp] theorem State.emitRequest_out (s : State) : s.emitRequest.out = s.out ++ [.sendReq req] := rfl
@[simp] theorem State.emitRequest_rdata (s : State) : s.emitRequest.rdata = s.rdata := rfl
@[simp] theorem State.emitRequest_matched (s : State) : s.emitRequest.matched = s.matched := rfl
@[simp] theorem State.emitRequest_unitRec (s : State) : s.emitRequest.unitRec = s.unitRec := rfl

/-! ### `ignore` -/

@[simp] theorem State.ignore_phase (s : State) : s.ignore.phase = s.phase := rfl
@[simp] theorem State.ignore_attempt (s : State) : s.ignore.attempt = s.attempt := rfl
@[simp] theorem State.ignore_buf (s : State) : s.ignore.buf = s.buf := rfl
@[simp] theorem State.ignore_bufLen (s : State) : s.ignore.bufLen = s.bufLen := rfl
@[simp] theorem State.ignore_regs (s : State) : s.ignore.regs = s.regs := rfl
@[simp] theorem State.ignore_recValid (s : State) : s.ignore.recValid = s.recValid := rfl
@[simp] theorem State.ignore_err (s : State) : s.ignore.err = s.err := rfl
@[simp] theorem State.ignore_ign (s : State) : s.ignore.ign = true := rfl
@[simp] theorem State.ignore_cfg (s : State) : s.ignore.cfg = s.cfg := rfl
@[simp] theorem State.ignore_pending (s : State) : s.ignore.pending = s.pending := rfl
@[simp] theorem State.ignore_out (s : State) : s.ignore.out = s.out := rfl
@[simp] theorem State.ignore_rdata (s : State) : s.ignore.rdata = s.rdata := rfl
@[simp] theorem State.ignore_matched (s : State) : s.ignore.matched = s.matched := rfl
@[simp] theorem State.ignore_unitRec (s : State) : s.ignore.unitRec = s.unitRec := rfl

/-! ### `raise` -/

@[simp] theorem State.raise_phase (s : State) (e : Err) : (s.raise e).phase = .doneFail := rfl
@[simp] theorem State.raise_attempt (s : State) (e : Err) : (s.raise e).attempt = s.attempt := rfl
@[simp] theorem State.raise_buf (s : State) (e : Err) : (s.raise e).buf = s.buf := rfl
@[simp] theorem State.raise_bufLen (s : State) (e : Err) : (s.raise e).bufLen = s.bufLen := rfl
@[simp] theorem State.raise_regs (s : State) (e : Err) : (s.raise e).regs = s.regs := rfl
@[simp] theorem State.raise_recValid (s : State) (e : Err) : (s.raise e).recValid = s.recValid := rfl
@[simp] theorem State.raise_err (s : State) (e : Err) : (s.raise e).err = e := rfl
@[simp] theorem State.raise_ign (s : State) (e : Err) : (s.raise e).ign = s.ign := rfl
@[simp] theorem State.raise_cfg (s : State) (e : Err) : (s.raise e).cfg = s.cfg := rfl
@[simp] theorem State.raise_pending (s : State) (e : Err) : (s.raise e).pending = s.pending := rfl
@[simp] theorem State.raise_out (s : State) (e : Err) : (s.raise e).out = s.out := rfl
@[simp] theorem State.raise_rdata (s : State) (e : Err) : (s.raise e).rdata = s.rdata := rfl
@[simp] theorem State.raise_matched (s : State) (e : Err) : (s.raise e).matched = s.matched := rfl
@[simp] theorem State.raise_unitRec (s : State) (e : Err) : (s.raise e).unitRec = s.unitRec := rfl

/-! ### `startAttempt` -/

@[simp] theorem State.startAttempt_phase (s : State) : s.startAttempt.phase = .wait0 := rfl
@[simp] theorem State.startAttempt_attempt (s : State) : s.startAttempt.attempt = s.attempt := rfl
@[simp] theorem State.startAttempt_buf (s : State) : s.startAttempt.buf = s.buf := rfl
@[simp] theorem State.startAttempt_bufLen (s : State) : s.startAttempt.bufLen = 0 := rfl
@[simp] theorem State.startAttempt_regs (s : State) : s.startAttempt.regs = s.regs := rfl
@[simp] theorem State.startAttempt_recValid (s : State) : s.startAttempt.recValid = s.recValid := rfl
@[simp] theorem State.startAttempt_err (s : State) : s.startAttempt.err = s.err := rfl
@[simp] theorem State.startAttempt_ign (s : State) : s.startAttempt.ign = s.ign := rfl
@[simp] theorem State.startAttempt_cfg (s : State) : s.startAttempt.cfg = s.cfg := rfl
@[simp] theorem State.startAttempt_pending (s : State) : s.startAttempt.pending = s.pending := rfl
@[simp] theorem State.startAttempt_out (s : State) : s.startAttempt.out = s.out ++ [.sendReq req] := rfl
@[simp] theorem State.startAttempt_rdata (s : State) : s.startAttempt.rdata = s.rdata := rfl
@[simp] theorem State.startAttempt_matched (s : State) : s.startAttempt.matched = s.matched := rfl
@[simp] theorem State.startAttempt_unitRec (s : State) : s.startAttempt.unitRec = s.unitRec := rfl

/-! ### `newCycle` -/

@[simp] theorem State.newCycle_phase (s : State) : s.newCycle.phase = .wait0 := rfl
@[simp] theorem State.newCycle_attempt (s : State) : s.newCycle.attempt = 1#4 := rfl
@[simp] theorem State.newCycle_buf (s : State) : s.newCycle.buf = s.buf := rfl
@[simp] theorem State.newCycle_bufLen (s : State) : s.newCycle.bufLen = 0 := rfl
@[simp] theorem State.newCycle_regs (s : State) : s.newCycle.regs = Record.cleared := rfl
@[simp] theorem State.newCycle_recValid (s : State) : s.newCycle.recValid = false := rfl
@[simp] theorem State.newCycle_err (s : State) : s.newCycle.err = .none := rfl
@[simp] theorem State.newCycle_ign (s : State) : s.newCycle.ign = false := rfl
@[simp] theorem State.newCycle_cfg (s : State) : s.newCycle.cfg = s.cfg := rfl
@[simp] theorem State.newCycle_pending (s : State) : s.newCycle.pending = s.pending := rfl
@[simp] theorem State.newCycle_out (s : State) : s.newCycle.out = s.out ++ [.sendReq req] := rfl
@[simp] theorem State.newCycle_rdata (s : State) : s.newCycle.rdata = s.rdata := rfl
@[simp] theorem State.newCycle_matched (s : State) : s.newCycle.matched = s.matched := rfl
@[simp] theorem State.newCycle_unitRec (s : State) : s.newCycle.unitRec = s.unitRec := rfl

/-! ### `resetBlock` -/

@[simp] theorem State.resetBlock_phase (s : State) : s.resetBlock.phase = .idle := rfl
@[simp] theorem State.resetBlock_attempt (s : State) : s.resetBlock.attempt = 0#4 := rfl
@[simp] theorem State.resetBlock_buf (s : State) : s.resetBlock.buf = [] := rfl
@[simp] theorem State.resetBlock_bufLen (s : State) : s.resetBlock.bufLen = 0 := rfl
@[simp] theorem State.resetBlock_regs (s : State) : s.resetBlock.regs = Record.cleared := rfl
@[simp] theorem State.resetBlock_recValid (s : State) : s.resetBlock.recValid = false := rfl
@[simp] theorem State.resetBlock_err (s : State) : s.resetBlock.err = .none := rfl
@[simp] theorem State.resetBlock_ign (s : State) : s.resetBlock.ign = false := rfl
@[simp] theorem State.resetBlock_cfg (s : State) : s.resetBlock.cfg = s.cfg := rfl
@[simp] theorem State.resetBlock_pending (s : State) : s.resetBlock.pending = s.pending := rfl
@[simp] theorem State.resetBlock_out (s : State) : s.resetBlock.out = s.out := rfl
@[simp] theorem State.resetBlock_rdata (s : State) : s.resetBlock.rdata = s.rdata := rfl
@[simp] theorem State.resetBlock_matched (s : State) : s.resetBlock.matched = s.matched := rfl
@[simp] theorem State.resetBlock_unitRec (s : State) : s.resetBlock.unitRec = s.unitRec := rfl

/-! ### `latchMatch` -/

@[simp] theorem State.latchMatch_phase (s : State) (m : Bool) : (s.latchMatch m).phase = s.phase := rfl
@[simp] theorem State.latchMatch_attempt (s : State) (m : Bool) : (s.latchMatch m).attempt = s.attempt := rfl
@[simp] theorem State.latchMatch_buf (s : State) (m : Bool) : (s.latchMatch m).buf = s.buf := rfl
@[simp] theorem State.latchMatch_bufLen (s : State) (m : Bool) : (s.latchMatch m).bufLen = s.bufLen := rfl
@[simp] theorem State.latchMatch_regs (s : State) (m : Bool) : (s.latchMatch m).regs = s.regs := rfl
@[simp] theorem State.latchMatch_recValid (s : State) (m : Bool) : (s.latchMatch m).recValid = s.recValid := rfl
@[simp] theorem State.latchMatch_err (s : State) (m : Bool) : (s.latchMatch m).err = s.err := rfl
@[simp] theorem State.latchMatch_ign (s : State) (m : Bool) : (s.latchMatch m).ign = s.ign := rfl
@[simp] theorem State.latchMatch_cfg (s : State) (m : Bool) : (s.latchMatch m).cfg = s.cfg := rfl
@[simp] theorem State.latchMatch_pending (s : State) (m : Bool) : (s.latchMatch m).pending = s.pending := rfl
@[simp] theorem State.latchMatch_out (s : State) (m : Bool) : (s.latchMatch m).out = s.out := rfl
@[simp] theorem State.latchMatch_rdata (s : State) (m : Bool) : (s.latchMatch m).rdata = s.rdata := rfl
@[simp] theorem State.latchMatch_matched (s : State) (m : Bool) : (s.latchMatch m).matched = m := rfl
@[simp] theorem State.latchMatch_unitRec (s : State) (m : Bool) : (s.latchMatch m).unitRec = s.unitRec := rfl

/-! ### `latchField` -/

@[simp] theorem State.latchField_phase (s : State) (set : Record → Record) : (s.latchField set).phase = s.phase := rfl
@[simp] theorem State.latchField_attempt (s : State) (set : Record → Record) : (s.latchField set).attempt = s.attempt := rfl
@[simp] theorem State.latchField_buf (s : State) (set : Record → Record) : (s.latchField set).buf = s.buf := rfl
@[simp] theorem State.latchField_bufLen (s : State) (set : Record → Record) : (s.latchField set).bufLen = s.bufLen := rfl
@[simp] theorem State.latchField_regs (s : State) (set : Record → Record) : (s.latchField set).regs = s.regs := rfl
@[simp] theorem State.latchField_recValid (s : State) (set : Record → Record) : (s.latchField set).recValid = s.recValid := rfl
@[simp] theorem State.latchField_err (s : State) (set : Record → Record) : (s.latchField set).err = s.err := rfl
@[simp] theorem State.latchField_ign (s : State) (set : Record → Record) : (s.latchField set).ign = s.ign := rfl
@[simp] theorem State.latchField_cfg (s : State) (set : Record → Record) : (s.latchField set).cfg = s.cfg := rfl
@[simp] theorem State.latchField_pending (s : State) (set : Record → Record) : (s.latchField set).pending = s.pending := rfl
@[simp] theorem State.latchField_out (s : State) (set : Record → Record) : (s.latchField set).out = s.out := rfl
@[simp] theorem State.latchField_rdata (s : State) (set : Record → Record) : (s.latchField set).rdata = s.rdata := rfl
@[simp] theorem State.latchField_matched (s : State) (set : Record → Record) : (s.latchField set).matched = s.matched := rfl
@[simp] theorem State.latchField_unitRec (s : State) (set : Record → Record) : (s.latchField set).unitRec = set s.unitRec := rfl

/-! ### `present` -/

@[simp] theorem State.present_phase (s : State) (rest : List Txn) : (s.present rest).phase = s.phase := rfl
@[simp] theorem State.present_attempt (s : State) (rest : List Txn) : (s.present rest).attempt = s.attempt := rfl
@[simp] theorem State.present_buf (s : State) (rest : List Txn) : (s.present rest).buf = s.buf := rfl
@[simp] theorem State.present_bufLen (s : State) (rest : List Txn) : (s.present rest).bufLen = s.bufLen := rfl
@[simp] theorem State.present_regs (s : State) (rest : List Txn) : (s.present rest).regs = s.regs := rfl
@[simp] theorem State.present_recValid (s : State) (rest : List Txn) : (s.present rest).recValid = s.recValid := rfl
@[simp] theorem State.present_err (s : State) (rest : List Txn) : (s.present rest).err = s.err := rfl
@[simp] theorem State.present_ign (s : State) (rest : List Txn) : (s.present rest).ign = s.ign := rfl
@[simp] theorem State.present_cfg (s : State) (rest : List Txn) : (s.present rest).cfg = s.cfg := rfl
@[simp] theorem State.present_pending (s : State) (rest : List Txn) : (s.present rest).pending = rest := rfl
@[simp] theorem State.present_out (s : State) (rest : List Txn) : (s.present rest).out = [] := rfl
@[simp] theorem State.present_rdata (s : State) (rest : List Txn) : (s.present rest).rdata = s.rdata := rfl
@[simp] theorem State.present_matched (s : State) (rest : List Txn) : (s.present rest).matched = s.matched := rfl
@[simp] theorem State.present_unitRec (s : State) (rest : List Txn) : (s.present rest).unitRec = s.unitRec := rfl

/-! ### `failAttempt` and `complete`: the fields no branch writes -/

@[simp] theorem State.failAttempt_buf (s : State) : s.failAttempt.buf = s.buf := by
  unfold State.failAttempt; split <;> rfl

@[simp] theorem State.failAttempt_regs (s : State) : s.failAttempt.regs = s.regs := by
  unfold State.failAttempt; split <;> rfl

@[simp] theorem State.failAttempt_recValid (s : State) : s.failAttempt.recValid = s.recValid := by
  unfold State.failAttempt; split <;> rfl

@[simp] theorem State.failAttempt_ign (s : State) : s.failAttempt.ign = s.ign := by
  unfold State.failAttempt; split <;> rfl

@[simp] theorem State.failAttempt_cfg (s : State) : s.failAttempt.cfg = s.cfg := by
  unfold State.failAttempt; split <;> rfl

@[simp] theorem State.failAttempt_pending (s : State) : s.failAttempt.pending = s.pending := by
  unfold State.failAttempt; split <;> rfl

@[simp] theorem State.failAttempt_rdata (s : State) : s.failAttempt.rdata = s.rdata := by
  unfold State.failAttempt; split <;> rfl

@[simp] theorem State.failAttempt_matched (s : State) : s.failAttempt.matched = s.matched := by
  unfold State.failAttempt; split <;> rfl

@[simp] theorem State.failAttempt_unitRec (s : State) : s.failAttempt.unitRec = s.unitRec := by
  unfold State.failAttempt; split <;> rfl

@[simp] theorem State.failAttempt_bufLen (s : State) : s.failAttempt.bufLen = 0 := by
  unfold State.failAttempt; split <;> rfl

@[simp] theorem State.complete_buf (s : State) : s.complete.buf = s.buf := by
  unfold State.complete; split <;> rfl

@[simp] theorem State.complete_attempt (s : State) : s.complete.attempt = s.attempt := by
  unfold State.complete; split <;> rfl

@[simp] theorem State.complete_ign (s : State) : s.complete.ign = s.ign := by
  unfold State.complete; split <;> rfl

@[simp] theorem State.complete_cfg (s : State) : s.complete.cfg = s.cfg := by
  unfold State.complete; split <;> rfl

@[simp] theorem State.complete_pending (s : State) : s.complete.pending = s.pending := by
  unfold State.complete; split <;> rfl

@[simp] theorem State.complete_out (s : State) : s.complete.out = s.out := by
  unfold State.complete; split <;> rfl

@[simp] theorem State.complete_rdata (s : State) : s.complete.rdata = s.rdata := by
  unfold State.complete; split <;> rfl

@[simp] theorem State.complete_matched (s : State) : s.complete.matched = s.matched := by
  unfold State.complete; split <;> rfl

@[simp] theorem State.complete_unitRec (s : State) : s.complete.unitRec = s.unitRec := by
  unfold State.complete; split <;> rfl

@[simp] theorem State.complete_bufLen (s : State) : s.complete.bufLen = 0 := by
  unfold State.complete; split <;> rfl

end Sys2Proof.Machine
end

