-- ==== Sys2Proof/Laws/Memory.lean ====
section
/-! SUPPORT. The frame buffer: read after write, canonical form, and what a stored chunk does to the bytes a rule reads
(20_memory.md R51, R54, R64). -/

namespace Sys2Proof.Machine

/-! ### One byte -/

theorem Memory.read_of_forall_lt (m : Memory) (a : Nat) (h : ∀ c ∈ m, a < c.1) :
    Memory.read m a = Memory.blank := by
  induction m with
  | nil => rfl
  | cons c m ih =>
    have hc := h c (by simp)
    simp only [Memory.read]
    rw [if_neg (by omega)]
    exact ih (fun d hd => h d (by simp [hd]))

/-- A write gives the byte at its address and leaves every other address alone. -/
theorem Memory.read_write (m : Memory) (hm : m.wf) (a a' : Nat) (b : Byte) :
    (m.write a b).read a' = if a' = a then b else m.read a' := by
  induction m with
  | nil => grind [Memory.write, Memory.read]
  | cons c m ih =>
    obtain ⟨k, v⟩ := c
    obtain ⟨hp, hb⟩ := hm
    rw [List.pairwise_cons] at hp
    have hwf : Memory.wf m := ⟨hp.2, fun c hc => hb c (by simp [hc])⟩
    have hlow : ∀ x, x ≤ k → Memory.read m x = Memory.blank := fun x hx =>
      Memory.read_of_forall_lt m x (fun c hc => Nat.lt_of_le_of_lt hx (hp.1 c hc))
    simp only [Memory.write]
    split
    · split <;> simp only [Memory.read] <;> grind
    · split
      · split <;> simp only [Memory.read] <;> grind
      · simp only [Memory.read, ih hwf]
        grind

/-- Where the cells of a written memory come from. -/
theorem Memory.mem_write (m : Memory) (a : Nat) (b : Byte) (c : Host.Cell) (h : c ∈ m.write a b) :
    c ∈ m ∨ (c = (a, b) ∧ b ≠ Memory.blank) := by
  induction m with
  | nil => grind [Memory.write]
  | cons d m ih =>
    obtain ⟨k, v⟩ := d
    simp only [Memory.write] at h
    grind

/-- A write keeps the canonical form. -/
theorem Memory.wf_write (m : Memory) (hm : m.wf) (a : Nat) (b : Byte) : (m.write a b).wf := by
  induction m with
  | nil => by_cases hb : b = Memory.blank <;> simp [Memory.write, Memory.wf, hb]
  | cons c m ih =>
    obtain ⟨k, v⟩ := c
    obtain ⟨hp, hb⟩ := hm
    rw [List.pairwise_cons] at hp
    have hwf : Memory.wf m := ⟨hp.2, fun c hc => hb c (by simp [hc])⟩
    have hv : v ≠ Memory.blank := hb (k, v) (by simp)
    obtain ⟨ihp, ihb⟩ := ih hwf
    have hmem := Memory.mem_write m a b
    refine ⟨?_, ?_⟩
    · simp only [Memory.write]
      split
      · split
        · exact List.pairwise_cons.2 hp
        · refine List.pairwise_cons.2 ⟨?_, List.pairwise_cons.2 hp⟩
          intro d hd
          rcases List.mem_cons.1 hd with rfl | hd
          · assumption
          · exact Nat.lt_trans (by assumption) (hp.1 d hd)
      · split
        · subst_vars
          split
          · exact hp.2
          · exact List.pairwise_cons.2 hp
        · refine List.pairwise_cons.2 ⟨?_, ihp⟩
          intro d hd
          rcases hmem d hd with hd | ⟨rfl, _⟩
          · exact hp.1 d hd
          · show k < a
            omega
    · intro d hd
      rcases Memory.mem_write ((k, v) :: m) a b d hd with hd | ⟨rfl, h⟩
      · exact hb d hd
      · exact h

/-! ### A chunk -/

/-- Storing a chunk keeps the canonical form. -/
theorem Memory.wf_writeBytes (bs : List Byte) (m : Memory) (hm : m.wf) (a : Nat) : (m.writeBytes a bs).wf := by
  induction bs generalizing m a with
  | nil => exact hm
  | cons b bs ih => exact ih _ (m.wf_write hm a b) _

/-- Where the cells of a memory with a chunk stored come from. -/
theorem Memory.mem_writeBytes (bs : List Byte) (m : Memory) (a : Nat) (c : Host.Cell) (h : c ∈ m.writeBytes a bs) :
    c ∈ m ∨ (a ≤ c.1 ∧ c.1 < a + bs.length) := by
  induction bs generalizing m a with
  | nil => exact .inl h
  | cons b bs ih =>
    rcases ih _ _ h with h | h
    · rcases Memory.mem_write m a b c h with h | ⟨rfl, _⟩
      · exact .inl h
      · exact .inr ⟨Nat.le_refl _, by simp⟩
    · refine .inr ⟨by omega, ?_⟩
      simp only [List.length_cons]
      omega

/-- `MemWrite(a, n, c)` (R54): the bytes of the chunk at its addresses, every other byte as before. -/
theorem Memory.read_writeBytes (bs : List Byte) (m : Memory) (hm : m.wf) (a a' : Nat) :
    (m.writeBytes a bs).read a' = if a ≤ a' ∧ a' < a + bs.length then bs.getD (a' - a) 0#8 else m.read a' := by
  induction bs generalizing m a with
  | nil =>
    rw [if_neg (by simp only [List.length_nil]; omega)]
    rfl
  | cons b bs ih =>
    rw [Memory.writeBytes, ih _ (m.wf_write hm a b), Memory.read_write m hm]
    simp only [List.length_cons]
    by_cases h : a' = a
    · subst h
      simp
    · by_cases h2 : a + 1 ≤ a' ∧ a' < a + 1 + bs.length
      · rw [if_pos h2, if_pos (by omega)]
        obtain ⟨j, hj⟩ : ∃ j, a' - a = j + 1 := ⟨a' - (a + 1), by omega⟩
        rw [hj, show a' - (a + 1) = j by omega]
        simp
      · rw [if_neg h2, if_neg h, if_neg (by omega)]

/-! ### What the rules read -/

@[simp] theorem State.frame_length (s : State) : s.frame.length = s.bufLen := by simp [State.frame]

theorem State.frame_getElem? (s : State) (a : Nat) :
    s.frame[a]? = if a < s.bufLen then some (s.buf.read a) else none := by
  simp only [State.frame, List.getElem?_map]
  split <;> simp_all

/-- The frame depends on the bytes below `BUF_LEN` alone (R64). -/
theorem State.frame_congr (s t : State) (hl : s.bufLen = t.bufLen)
    (h : ∀ a, a < s.bufLen → s.buf.read a = t.buf.read a) : s.frame = t.frame := by
  simp only [State.frame, ← hl]
  exact List.map_congr_left (fun a ha => h a (List.mem_range.1 ha))

@[simp] theorem State.frame_of_bufLen_zero (s : State) (h : s.bufLen = 0) : s.frame = [] := by
  simp [State.frame, h]

/-- Storing a chunk appends it to what the rules read (R9, R23, R108). -/
theorem State.frame_storeChunk (s : State) (hm : s.buf.wf) (data : List Byte) :
    (s.storeChunk data).frame = s.frame ++ data := by
  apply List.ext_getElem?
  intro a
  rw [State.frame_getElem?, State.storeChunk_bufLen, State.storeChunk_buf, Memory.read_writeBytes data s.buf hm, List.getElem?_append, State.frame_length, State.frame_getElem?]
  by_cases h1 : a < s.bufLen
  · rw [if_pos (by omega), if_neg (by omega), if_pos h1, if_pos h1]
  · rw [if_neg h1]
    by_cases h2 : a < s.bufLen + data.length
    · have h3 : a - s.bufLen < data.length := by omega
      rw [if_pos h2, if_pos ⟨by omega, h2⟩, List.getElem?_eq_getElem h3, List.getD_eq_getElem?_getD,
        List.getElem?_eq_getElem h3]
      rfl
    · rw [if_neg h2, List.getElem?_eq_none (by omega)]

end Sys2Proof.Machine
end

