-- ==== Sys2Proof/Laws/Ops.lean ====
section
/-! SUPPORT. One lemma per shared operation that says all it can do, and the inversion of `exec` and `step`. -/

namespace Sys2Proof.Machine

/-! ### Internal procedures -/

/-- FailAttempt (R103): the next attempt, or `NoResponse`. -/
theorem State.failAttempt_cases (s : State) :
    (s.attempt.toNat < s.cfg.maxAttempts
      ∧ s.failAttempt = State.startAttempt { s with attempt := s.attempt + 1#4 })
    ∨ (s.cfg.maxAttempts ≤ s.attempt.toNat
      ∧ s.failAttempt = State.raise { s with bufLen := 0 } .noResponse) := by
  unfold State.failAttempt
  split
  · exact .inl ⟨by assumption, rfl⟩
  · exact .inr ⟨by omega, rfl⟩

/-- Complete (R104): the record is latched whole, or `MalformedFrame`. -/
theorem State.complete_cases (s : State) :
    (∃ r, decodeFn s.frame = .ok r
      ∧ s.complete = { s with bufLen := 0, regs := r, recValid := true, err := .none, phase := .doneOk })
    ∨ (decodeFn s.frame = .malformedFrame
      ∧ s.complete = State.raise { s with bufLen := 0 } .malformedFrame) := by
  unfold State.complete
  split
  · exact .inl ⟨_, by assumption, rfl⟩
  · exact .inr ⟨by assumption, rfl⟩

/-- The end of the second chunk's step (R108). -/
theorem judgeFrame_cases (s : State) :
    (termOk s.frame = true ∧ judgeFrame s = s.complete)
    ∨ (termOk s.frame = false ∧ judgeFrame s = s.failAttempt) := by
  unfold judgeFrame
  by_cases h : termOk s.frame = true
  · exact .inl ⟨h, by rw [if_pos h]⟩
  · exact .inr ⟨by simpa using h, by rw [if_neg h]⟩

/-- An extractor completes exactly when its bytes are there. -/
theorem extractTo_next (f : List Byte) (o n : Nat) (set : Record → Record) (s t : State)
    (h : extractTo f o n set s = .next t) : fieldFits f o n = true ∧ t = s.latchField set := by
  unfold extractTo at h
  split at h
  · simp only [Host.Outcome.next.injEq] at h
    exact ⟨by assumption, h.symm⟩
  · cases h

/-- An extractor stops exactly when a byte of its field is missing. -/
theorem extractTo_fault (f : List Byte) (o n : Nat) (set : Record → Record) (s : State)
    (h : f.length < hdrLen + o + n) : extractTo f o n set s = .fault .readPastFrame := by
  have : fieldFits f o n = false := by
    simp only [fieldFits, decide_eq_false_iff_not]
    omega
  simp [extractTo, this]

/-- An extractor completes on a string that holds its bytes. -/
theorem extractTo_complete (f : List Byte) (o n : Nat) (set : Record → Record) (s : State)
    (h : hdrLen + o + n ≤ f.length) : extractTo f o n set s = .next (s.latchField set) := by
  simp [extractTo, fieldFits, h]

theorem Phase.waiting_iff (p : Phase) : p.waiting = true ↔ p = .wait0 ∨ p = .wait1 := by
  cases p <;> simp [Phase.waiting]

theorem Phase.not_waiting_iff (p : Phase) : p.waiting = false ↔ p = .idle ∨ p = .doneOk ∨ p = .doneFail := by
  cases p <;> simp [Phase.waiting]

/-! ### The operations -/

/-- All that an operation can do. -/
theorem exec_cases (i : Instr) (s t : State) (h : exec i s = .next t) :
    (ignoredIn i s ∧ t = s.ignore)
    ∨ (i = .start ∧ s.phase.waiting = false ∧ t = s.newCycle)
    ∨ (i = .timeout ∧ s.phase.waiting = true ∧ t = s.failAttempt)
    ∨ (∃ d, i = .chunk d ∧ s.phase.waiting = true ∧ s.cfg.frameBufBytes < s.bufLen + d.length ∧ t = s.failAttempt)
    ∨ (∃ d, i = .chunk d ∧ s.phase = .wait0 ∧ s.bufLen + d.length ≤ s.cfg.frameBufBytes
        ∧ t = (s.storeChunk d).awaitSecond)
    ∨ (∃ d, i = .chunk d ∧ s.phase = .wait1 ∧ s.bufLen + d.length ≤ s.cfg.frameBufBytes
        ∧ t = judgeFrame (s.storeChunk d))
    ∨ (i = .reset ∧ t = s.resetBlock)
    ∨ (i = .sendreq ∧ t = s.emitRequest)
    ∨ (i ≠ .sendreq ∧ i ≠ .reset ∧ i ≠ .start ∧ i.delivery = false
        ∧ ∃ d m r, t = { s with rdata := d, matched := m, unitRec := r }) := by
  have field : ∀ f o n set, extractTo f o n set s = .next t →
      ∃ d m r, t = { s with rdata := d, matched := m, unitRec := r } := fun f o n set e =>
    ⟨s.rdata, s.matched, _, (extractTo_next f o n set s t e).2⟩
  have row : ∀ r w, applyRow r w s = .next t →
      ∃ d m r, t = { s with rdata := d, matched := m, unitRec := r } := by
    intro r w e
    simp only [applyRow, Host.Outcome.next.injEq] at e
    split at e
    · exact ⟨s.rdata, s.matched, _, e.symm⟩
    · exact ⟨s.rdata, s.matched, s.unitRec, e.symm⟩
  cases i with
  | nop =>
    simp only [exec, execNop, Host.Outcome.next.injEq] at h
    iterate 8 apply Or.inr
    exact ⟨by simp, by simp, by simp, rfl, ⟨s.rdata, s.matched, s.unitRec, h.symm⟩⟩
  | start =>
    simp only [exec, execStart, Host.Outcome.next.injEq] at h
    split at h <;> rename_i hw
    · exact .inl ⟨.inl ⟨rfl, hw⟩, h.symm⟩
    · exact .inr (.inl ⟨rfl, by simpa using hw, h.symm⟩)
  | chunk d =>
    simp only [exec, execChunk, Host.Outcome.next.injEq] at h
    by_cases hw : s.phase.waiting = true
    · simp only [hw, Bool.not_true, Bool.false_eq_true, if_false] at h
      split at h
      · exact .inr (.inr (.inr (.inl ⟨d, rfl, hw, by assumption, h.symm⟩)))
      · split at h
        · exact .inr (.inr (.inr (.inr (.inl ⟨d, rfl, by assumption, by omega, h.symm⟩))))
        · refine .inr (.inr (.inr (.inr (.inr (.inl ⟨d, rfl, ?_, by omega, h.symm⟩)))))
          rcases (Phase.waiting_iff _).1 hw with h0 | h1
          · contradiction
          · exact h1
    · have hw' : s.phase.waiting = false := by simpa using hw
      simp only [hw', Bool.not_false, if_true] at h
      exact .inl ⟨.inr (.inl ⟨.inl ⟨d, rfl⟩, hw'⟩), h.symm⟩
  | timeout =>
    simp only [exec, execTimeout, Host.Outcome.next.injEq] at h
    split at h <;> rename_i hw
    · exact .inr (.inr (.inl ⟨rfl, hw, h.symm⟩))
    · exact .inl ⟨.inr (.inl ⟨.inr rfl, by simpa using hw⟩), h.symm⟩
  | reserved low =>
    simp only [exec, execReserved, Host.Outcome.next.injEq] at h
    exact .inl ⟨.inr (.inr ⟨low, rfl⟩), h.symm⟩
  | reset =>
    simp only [exec, execReset, Host.Outcome.next.injEq] at h
    exact .inr (.inr (.inr (.inr (.inr (.inr (.inl ⟨rfl, h.symm⟩))))))
  | read idx =>
    simp only [exec, execRead, Host.Outcome.next.injEq] at h
    iterate 8 apply Or.inr
    exact ⟨by simp, by simp, by simp, rfl, ⟨_, s.matched, s.unitRec, h.symm⟩⟩
  | sendreq =>
    simp only [exec, execSendreq, Host.Outcome.next.injEq] at h
    exact .inr (.inr (.inr (.inr (.inr (.inr (.inr (.inl ⟨rfl, h.symm⟩)))))))
  | startMarker f =>
    simp only [exec, execStartMarker, Host.Outcome.next.injEq] at h
    iterate 8 apply Or.inr
    exact ⟨by simp, by simp, by simp, rfl, ⟨s.rdata, _, s.unitRec, h.symm⟩⟩
  | term f =>
    simp only [exec, execTerm, Host.Outcome.next.injEq] at h
    iterate 8 apply Or.inr
    exact ⟨by simp, by simp, by simp, rfl, ⟨s.rdata, _, s.unitRec, h.symm⟩⟩
  | extVmain f | extImain f | extRemcap f | extNomcap f | extNcyc f | extProt f | extSoc f =>
    iterate 8 apply Or.inr
    exact ⟨by simp, by simp, by simp, rfl, field _ _ _ _ h⟩
  | protOk w | protBit0 w | protBit1 w | protBit2 w | protBit3 w | protBit4 w | protBit5 w | protBit6 w | protBit7 w
  | protBit8 w | protBit9 w | protBit10 w | protBit11 w | protBit12 w =>
    iterate 8 apply Or.inr
    exact ⟨by simp, by simp, by simp, rfl, row _ _ h⟩

/-! ### Steps -/

/-- All that a step can do. -/
theorem step_cases (s t : State) (h : step s = .next t) :
    s.cfg.valid = true ∧
    ((s.pending = [] ∧ t = s.present [])
      ∨ ∃ x rest i, s.pending = x :: rest ∧ decode x = .ok i ∧ exec i (s.present rest) = .next t) := by
  unfold step at h
  split at h
  · cases h
  · refine ⟨by simp_all, ?_⟩
    split at h
    · simp only [Host.Outcome.next.injEq] at h
      exact .inl ⟨by assumption, h.symm⟩
    · split at h
      · exact .inr ⟨_, _, _, by assumption, by assumption, h⟩
      · cases h

end Sys2Proof.Machine
end

