-- ==== Sys2Proof/Laws/Host.lean ====
section
/-! SUPPORT. The width of `BUF_LEN` (R7), and what the host's functions over reads and polls can do. -/

namespace Sys2Proof.Machine

/-! ### The width of `BUF_LEN` -/

/-- The register holds every length up to the capacity. -/
theorem frameBufBytes_lt_bufLenBits (c : Config) : c.frameBufBytes < 2 ^ bufLenBits c := Nat.lt_log2_self

/-- No narrower register does. -/
theorem bufLenBits_le (c : Config) (w : Nat) (hc : c.frameBufBytes ≠ 0) (h : c.frameBufBytes < 2 ^ w) :
    bufLenBits c ≤ w := (Nat.log2_lt hc).2 h

/-- A length within the capacity fits its register. -/
theorem State.bufLen_fits (s : State) (h : s.bufLen ≤ s.cfg.frameBufBytes) : s.bufLen < 2 ^ bufLenBits s.cfg :=
  Nat.lt_of_le_of_lt h (frameBufBytes_lt_bufLenBits s.cfg)

theorem State.bufLenReg_toNat (s : State) (h : s.bufLen < 2 ^ bufLenBits s.cfg) : s.bufLenReg.toNat = s.bufLen := by
  simp [State.bufLenReg, Nat.mod_eq_of_lt h]

/-! ### Reads -/

/-- The record that the host rebuilds from the words of a state is the record of the state. -/
theorem recordOfWords_regMap (s : State) : recordOfWords (recordIndexes.map s.regMap) = some s.regs := by
  simp [recordOfWords, recordIndexes, State.regMap, zext16]

/-- What the host outputs from the reads of a state. -/
theorem State.hostOutput_eq (s : State) :
    s.hostOutput = if s.recordUsable then successObject s.regs else .empty := by
  unfold State.hostOutput hostObject
  rw [recordOfWords_regMap]
  rfl

/-! ### Polls -/

theorem andThen_next {α β : Type} (a : α) (f : α → Host.Outcome β Fault Refusal) : andThen (.next a) f = f a := rfl

/-- A move whose operation completes. -/
theorem PollState.present_next (i : Instr) (p : PollState) (t : State) (h : exec i p.block = .next t) :
    p.present i = .next { p with block := t, presented := p.presented ++ [encode i] } := by
  simp [PollState.present, h, andThen]

/-- A delivery completes in every state. -/
theorem Delivery.completes (d : Delivery) (s : State) : ∃ t, exec d.event s = .next t := by
  cases d <;> exact ⟨_, rfl⟩

/-- A read changes `rdata` of the block, and is recorded. -/
theorem PollState.present_read (idx : BitVec 4) (p : PollState) :
    p.present (.read idx)
      = .next { p with block := { p.block with rdata := p.block.regMap idx },
                       presented := p.presented ++ [encode (.read idx)] } := rfl

/-- Deliveries complete and touch neither the words read nor the output. They end with `DONE` = 1 or because there
are no more. -/
theorem PollState.deliver_next (ds : List Delivery) (p : PollState) :
    ∃ q, p.deliver ds = .next q ∧ q.words = p.words ∧ q.output = p.output := by
  induction ds generalizing p with
  | nil => exact ⟨p, rfl, rfl, rfl⟩
  | cons d ds ih =>
    rw [PollState.deliver]
    split
    · exact ⟨p, rfl, rfl, rfl⟩
    · obtain ⟨t, ht⟩ := d.completes p.block
      rw [PollState.present_next _ _ t ht, andThen_next]
      exact ih _

/-- The registers do not depend on the data lines. -/
theorem State.regMap_rdata (s : State) (d : Half) (idx : BitVec 4) : { s with rdata := d }.regMap idx = s.regMap idx :=
  rfl

/-- Reads complete, collect the words of the registers and change only the data lines of the block. -/
theorem PollState.readWords_next (idxs : List (BitVec 4)) (p : PollState) :
    ∃ q d, p.readWords idxs = .next q ∧ q.words = p.words ++ idxs.map p.block.regMap
      ∧ q.block = { p.block with rdata := d } ∧ q.output = p.output := by
  induction idxs generalizing p with
  | nil => exact ⟨p, p.block.rdata, rfl, by simp, rfl, rfl⟩
  | cons idx idxs ih =>
    rw [PollState.readWords, PollState.present_read, andThen_next]
    obtain ⟨q, d, h1, h2, h3, h4⟩ := ih
      { p with block := { p.block with rdata := p.block.regMap idx },
               presented := p.presented ++ [encode (.read idx)],
               words := p.words ++ [p.block.regMap idx] }
    exact ⟨q, d, h1, by rw [h2]; simp [State.regMap_rdata], h3, h4⟩

end Sys2Proof.Machine
end

