-- ==== Sys2Proof/Laws/PerInstr.lean ====
section
/-! SUPPORT. The protection rows exclude one another (43_protection.md R177), and the statements made per operation:
decoding what the encoder gives answers the operation. -/

namespace Sys2Proof.Machine

/-- Two rows whose patterns disagree on the bits both look at never apply to one word. -/
theorem ProtRow.exclusive (q r : ProtRow) (w : Half) (hd : r.pattern &&& q.mask ≠ q.pattern &&& r.mask)
    (h : r.applies w = true) : q.applies w = false := by
  simp only [ProtRow.applies, decide_eq_true_eq, decide_eq_false_iff_not] at h ⊢
  intro hq
  apply hd
  rw [← h, ← hq, BitVec.and_assoc, BitVec.and_assoc, BitVec.and_comm r.mask]

/-- What the decoder answers for a protection word: an entry of the table whose row applies. -/
theorem decodeProt_ok (w : Half) (i : Instr) (h : decodeProt w = .ok i) :
    ∃ e ∈ protTable, e.1.applies w = true ∧ i = e.2 w := by
  unfold decodeProt at h
  split at h
  · rename_i e he
    simp only [Decoded.ok.injEq] at h
    exact ⟨e, List.mem_of_find?_eq_some he, by simpa using List.find?_some he, h.symm⟩
  · cases h

/-- What the decoder answers for a field descriptor: an entry of the table, on a frame that passed the validator. -/
theorem decodeField_ok (d : FieldDesc) (f : List Byte) (i : Instr) (h : decodeField d f = .ok i) :
    validFrame f = true ∧ ∃ e ∈ fieldTable, e.1 = d ∧ i = e.2 f := by
  unfold decodeField at h
  split at h
  · cases h
  · rename_i hv
    refine ⟨by simpa using hv, ?_⟩
    split at h
    · rename_i e he
      simp only [Decoded.ok.injEq] at h
      exact ⟨e, List.mem_of_find?_eq_some he, by simpa using List.find?_some he, h.symm⟩
    · cases h

end Sys2Proof.Machine

namespace Sys2Proof.Laws.RoundTrip

open Machine

/-- Decode after encode is the identity on a well-formed operation (R89). -/
def Statement (i : Instr) : Prop := i.wellFormed = true → decode (encode i) = .ok i

theorem nop : Statement .nop := fun _ => rfl

theorem start : Statement .start := fun _ => rfl

theorem timeout : Statement .timeout := fun _ => rfl

theorem reset : Statement .reset := fun _ => rfl

theorem sendreq : Statement .sendreq := fun _ => rfl

theorem chunk (data : List Byte) : Statement (.chunk data) := fun _ => rfl

theorem reserved (low : BitVec 2) : Statement (.reserved low) := fun _ => by revert low; decide

theorem read (idx : BitVec 4) : Statement (.read idx) := fun _ => rfl

theorem startMarker (f : List Byte) : Statement (.startMarker f) := fun _ => rfl

theorem term (f : List Byte) : Statement (.term f) := fun _ => rfl

theorem extVmain (f : List Byte) : Statement (.extVmain f) := fun h => by
  simp only [Instr.wellFormed] at h
  simp only [encode, decode, decodeField, h]
  rfl

theorem extImain (f : List Byte) : Statement (.extImain f) := fun h => by
  simp only [Instr.wellFormed] at h
  simp only [encode, decode, decodeField, h]
  rfl

theorem extRemcap (f : List Byte) : Statement (.extRemcap f) := fun h => by
  simp only [Instr.wellFormed] at h
  simp only [encode, decode, decodeField, h]
  rfl

theorem extNomcap (f : List Byte) : Statement (.extNomcap f) := fun h => by
  simp only [Instr.wellFormed] at h
  simp only [encode, decode, decodeField, h]
  rfl

theorem extNcyc (f : List Byte) : Statement (.extNcyc f) := fun h => by
  simp only [Instr.wellFormed] at h
  simp only [encode, decode, decodeField, h]
  rfl

theorem extProt (f : List Byte) : Statement (.extProt f) := fun h => by
  simp only [Instr.wellFormed] at h
  simp only [encode, decode, decodeField, h]
  rfl

theorem extSoc (f : List Byte) : Statement (.extSoc f) := fun h => by
  simp only [Instr.wellFormed] at h
  simp only [encode, decode, decodeField, h]
  rfl

theorem protOk (w : Half) : Statement (.protOk w) := fun h => by
  simp only [Instr.wellFormed] at h
  simp [encode, decode, decodeProt, protTable, h]

theorem protBit0 (w : Half) : Statement (.protBit0 w) := fun h => by
  simp only [Instr.wellFormed] at h
  simp [encode, decode, decodeProt, protTable, h, ProtRow.exclusive rowOk row0 w (by decide) h]

theorem protBit1 (w : Half) : Statement (.protBit1 w) := fun h => by
  simp only [Instr.wellFormed] at h
  simp [encode, decode, decodeProt, protTable, h, ProtRow.exclusive rowOk row1 w (by decide) h,
    ProtRow.exclusive row0 row1 w (by decide) h]

theorem protBit2 (w : Half) : Statement (.protBit2 w) := fun h => by
  simp only [Instr.wellFormed] at h
  simp [encode, decode, decodeProt, protTable, h, ProtRow.exclusive rowOk row2 w (by decide) h,
    ProtRow.exclusive row0 row2 w (by decide) h, ProtRow.exclusive row1 row2 w (by decide) h]

theorem protBit3 (w : Half) : Statement (.protBit3 w) := fun h => by
  simp only [Instr.wellFormed] at h
  simp [encode, decode, decodeProt, protTable, h, ProtRow.exclusive rowOk row3 w (by decide) h,
    ProtRow.exclusive row0 row3 w (by decide) h, ProtRow.exclusive row1 row3 w (by decide) h,
    ProtRow.exclusive row2 row3 w (by decide) h]

theorem protBit4 (w : Half) : Statement (.protBit4 w) := fun h => by
  simp only [Instr.wellFormed] at h
  simp [encode, decode, decodeProt, protTable, h, ProtRow.exclusive rowOk row4 w (by decide) h,
    ProtRow.exclusive row0 row4 w (by decide) h, ProtRow.exclusive row1 row4 w (by decide) h,
    ProtRow.exclusive row2 row4 w (by decide) h, ProtRow.exclusive row3 row4 w (by decide) h]

theorem protBit5 (w : Half) : Statement (.protBit5 w) := fun h => by
  simp only [Instr.wellFormed] at h
  simp [encode, decode, decodeProt, protTable, h, ProtRow.exclusive rowOk row5 w (by decide) h,
    ProtRow.exclusive row0 row5 w (by decide) h, ProtRow.exclusive row1 row5 w (by decide) h,
    ProtRow.exclusive row2 row5 w (by decide) h, ProtRow.exclusive row3 row5 w (by decide) h,
    ProtRow.exclusive row4 row5 w (by decide) h]

theorem protBit6 (w : Half) : Statement (.protBit6 w) := fun h => by
  simp only [Instr.wellFormed] at h
  simp [encode, decode, decodeProt, protTable, h, ProtRow.exclusive rowOk row6 w (by decide) h,
    ProtRow.exclusive row0 row6 w (by decide) h, ProtRow.exclusive row1 row6 w (by decide) h,
    ProtRow.exclusive row2 row6 w (by decide) h, ProtRow.exclusive row3 row6 w (by decide) h,
    ProtRow.exclusive row4 row6 w (by decide) h, ProtRow.exclusive row5 row6 w (by decide) h]

theorem protBit7 (w : Half) : Statement (.protBit7 w) := fun h => by
  simp only [Instr.wellFormed] at h
  simp [encode, decode, decodeProt, protTable, h, ProtRow.exclusive rowOk row7 w (by decide) h,
    ProtRow.exclusive row0 row7 w (by decide) h, ProtRow.exclusive row1 row7 w (by decide) h,
    ProtRow.exclusive row2 row7 w (by decide) h, ProtRow.exclusive row3 row7 w (by decide) h,
    ProtRow.exclusive row4 row7 w (by decide) h, ProtRow.exclusive row5 row7 w (by decide) h,
    ProtRow.exclusive row6 row7 w (by decide) h]

theorem protBit8 (w : Half) : Statement (.protBit8 w) := fun h => by
  simp only [Instr.wellFormed] at h
  simp [encode, decode, decodeProt, protTable, h, ProtRow.exclusive rowOk row8 w (by decide) h,
    ProtRow.exclusive row0 row8 w (by decide) h, ProtRow.exclusive row1 row8 w (by decide) h,
    ProtRow.exclusive row2 row8 w (by decide) h, ProtRow.exclusive row3 row8 w (by decide) h,
    ProtRow.exclusive row4 row8 w (by decide) h, ProtRow.exclusive row5 row8 w (by decide) h,
    ProtRow.exclusive row6 row8 w (by decide) h, ProtRow.exclusive row7 row8 w (by decide) h]

theorem protBit9 (w : Half) : Statement (.protBit9 w) := fun h => by
  simp only [Instr.wellFormed] at h
  simp [encode, decode, decodeProt, protTable, h, ProtRow.exclusive rowOk row9 w (by decide) h,
    ProtRow.exclusive row0 row9 w (by decide) h, ProtRow.exclusive row1 row9 w (by decide) h,
    ProtRow.exclusive row2 row9 w (by decide) h, ProtRow.exclusive row3 row9 w (by decide) h,
    ProtRow.exclusive row4 row9 w (by decide) h, ProtRow.exclusive row5 row9 w (by decide) h,
    ProtRow.exclusive row6 row9 w (by decide) h, ProtRow.exclusive row7 row9 w (by decide) h,
    ProtRow.exclusive row8 row9 w (by decide) h]

theorem protBit10 (w : Half) : Statement (.protBit10 w) := fun h => by
  simp only [Instr.wellFormed] at h
  simp [encode, decode, decodeProt, protTable, h, ProtRow.exclusive rowOk row10 w (by decide) h,
    ProtRow.exclusive row0 row10 w (by decide) h, ProtRow.exclusive row1 row10 w (by decide) h,
    ProtRow.exclusive row2 row10 w (by decide) h, ProtRow.exclusive row3 row10 w (by decide) h,
    ProtRow.exclusive row4 row10 w (by decide) h, ProtRow.exclusive row5 row10 w (by decide) h,
    ProtRow.exclusive row6 row10 w (by decide) h, ProtRow.exclusive row7 row10 w (by decide) h,
    ProtRow.exclusive row8 row10 w (by decide) h, ProtRow.exclusive row9 row10 w (by decide) h]

theorem protBit11 (w : Half) : Statement (.protBit11 w) := fun h => by
  simp only [Instr.wellFormed] at h
  simp [encode, decode, decodeProt, protTable, h, ProtRow.exclusive rowOk row11 w (by decide) h,
    ProtRow.exclusive row0 row11 w (by decide) h, ProtRow.exclusive row1 row11 w (by decide) h,
    ProtRow.exclusive row2 row11 w (by decide) h, ProtRow.exclusive row3 row11 w (by decide) h,
    ProtRow.exclusive row4 row11 w (by decide) h, ProtRow.exclusive row5 row11 w (by decide) h,
    ProtRow.exclusive row6 row11 w (by decide) h, ProtRow.exclusive row7 row11 w (by decide) h,
    ProtRow.exclusive row8 row11 w (by decide) h, ProtRow.exclusive row9 row11 w (by decide) h,
    ProtRow.exclusive row10 row11 w (by decide) h]

theorem protBit12 (w : Half) : Statement (.protBit12 w) := fun h => by
  simp only [Instr.wellFormed] at h
  simp [encode, decode, decodeProt, protTable, h, ProtRow.exclusive rowOk row12 w (by decide) h,
    ProtRow.exclusive row0 row12 w (by decide) h, ProtRow.exclusive row1 row12 w (by decide) h,
    ProtRow.exclusive row2 row12 w (by decide) h, ProtRow.exclusive row3 row12 w (by decide) h,
    ProtRow.exclusive row4 row12 w (by decide) h, ProtRow.exclusive row5 row12 w (by decide) h,
    ProtRow.exclusive row6 row12 w (by decide) h, ProtRow.exclusive row7 row12 w (by decide) h,
    ProtRow.exclusive row8 row12 w (by decide) h, ProtRow.exclusive row9 row12 w (by decide) h,
    ProtRow.exclusive row10 row12 w (by decide) h, ProtRow.exclusive row11 row12 w (by decide) h]

end Sys2Proof.Laws.RoundTrip
end

