-- ==== Sys2Proof/Tests/Slice0.lean ====
section
/-! SUPPORT. The model's own tests. Expected values are those of 95_test_vectors.md and of the tables of spec/; each test
names its source. The last part gives every obligation with hypotheses a witness that meets them. -/

namespace Sys2Proof.Tests.Slice0

open Sys2Proof Sys2Proof.Machine

/-! ### Helpers -/

/-- The next state, if there is one. -/
def stateOf : Host.Outcome State Fault Refusal → Option State
  | .next s => some s
  | .fault _ => none
  | .refused _ => none

/-- The fault, if there is one. -/
def faultOf : Host.Outcome State Fault Refusal → Option Fault
  | .fault r => some r
  | .next _ => none
  | .refused _ => none

/-- The refusal, if there is one. -/
def refusalOf : Host.Outcome State Fault Refusal → Option Refusal
  | .refused r => some r
  | .next _ => none
  | .fault _ => none

/-- The status word after some operations. -/
def statusAfter (s : State) (ops : List Instr) : Option Half := (stateOf (execAll ops s)).map State.status

/-- How many `SendReq` some operations emit. -/
def requestsOf (s : State) (ops : List Instr) : Option Nat := (stateOf (execAll ops s)).map (fun t => t.out.length)

/-- A state in a phase, with an attempt number and `BUF` holding some bytes. -/
def stateAt (p : Phase) (attempt : Nat) (bytes : List Byte) : State :=
  { State.reset with
    phase := p, attempt := BitVec.ofNat 4 attempt, buf := Memory.writeBytes [] 0 bytes, bufLen := bytes.length }

/-- `DONE_FAIL` with an error. -/
def failed (e : Err) (attempt : Nat) : State := { stateAt .doneFail attempt [] with err := e }

/-- `DONE_OK` with a record. -/
def decoded (r : Record) : State := { stateAt .doneOk 1 [] with regs := r, recValid := true }

/-- The reset state with other parameters. -/
def withParams (attempts bytes : Nat) (s : State) : State :=
  { s with cfg := { maxAttempts := attempts, frameBufBytes := bytes } }

/-! The named frames of 95_test_vectors.md, cut at frame index 16, after which `FX34` lacks one zero byte. -/

def head16 : List Byte :=
  [0xDD#8, 0x03#8, 0x00#8, 0x1B#8, 0x05#8, 0x28#8, 0x00#8, 0x00#8, 0x1B#8, 0xB2#8, 0x2A#8, 0xEF#8, 0x00#8, 0x02#8,
   0x29#8, 0x0A#8]

def tail12 : List Byte :=
  [0x25#8, 0x41#8, 0x03#8, 0x04#8, 0x02#8, 0x0B#8, 0x74#8, 0x0B#8, 0x6B#8, 0xFC#8, 0x39#8, 0x77#8]

def FX35 : List Byte := head16 ++ List.replicate 7 0x00#8 ++ tail12
def FX34 : List Byte := head16 ++ List.replicate 6 0x00#8 ++ tail12
def FA34 : List Byte := ((FX34.set 6 0xFF#8).set 7 0x38#8).set 20 0x08#8 |>.set 21 0x80#8
def FN34 : List Byte := FX34.set 33 0x00#8
def FM34 : List Byte := FX34.set 1 0x04#8
def FS24 : List Byte := head16 ++ List.replicate 6 0x00#8 ++ [0x25#8, 0x77#8]
def FS25 : List Byte := head16 ++ List.replicate 6 0x00#8 ++ [0x25#8, 0x41#8, 0x77#8]

/-- The record of V2; V1 differs from it in `SOC`. -/
def recFX34 : Record :=
  { vmain := 0x0528#16, imain := 0x0000#16, remcap := 0x1BB2#16, nomcap := 0x2AEF#16, ncyc := 0x0002#16,
    prot := 0x0000#16, soc := 0x41#8, pcode := 0xF#4 }

/-! ### Well-formedness: each check refuses an ill-formed term -/

theorem test_wf_refuses_extractors_on_unvalidated_frames :
    (Instr.extVmain FS24).wellFormed = false ∧ (Instr.extImain FM34).wellFormed = false
    ∧ (Instr.extRemcap FN34).wellFormed = false ∧ (Instr.extNomcap []).wellFormed = false
    ∧ (Instr.extNcyc [0xDD#8, 0x03#8, 0x77#8]).wellFormed = false
    ∧ (Instr.extProt (FX34.set 0 0xDC#8)).wellFormed = false ∧ (Instr.extSoc FS24).wellFormed = false := by decide

theorem test_wf_refuses_low_rows_on_other_words :
    (Instr.protOk 0x0001#16).wellFormed = false ∧ (Instr.protBit0 0x0003#16).wellFormed = false
    ∧ (Instr.protBit1 0x0001#16).wellFormed = false ∧ (Instr.protBit2 0x1004#16).wellFormed = false
    ∧ (Instr.protBit3 0x0018#16).wellFormed = false ∧ (Instr.protBit4 0x0000#16).wellFormed = false
    ∧ (Instr.protBit5 0x0060#16).wellFormed = false := by decide

theorem test_wf_refuses_high_rows_on_other_words :
    (Instr.protBit6 0x0080#16).wellFormed = false ∧ (Instr.protBit7 0x0880#16).wellFormed = false
    ∧ (Instr.protBit8 0x0300#16).wellFormed = false ∧ (Instr.protBit9 0x0600#16).wellFormed = false
    ∧ (Instr.protBit10 0x0200#16).wellFormed = false ∧ (Instr.protBit11 0x1800#16).wellFormed = false
    ∧ (Instr.protBit12 0xE000#16).wellFormed = false := by decide

/-! ### Decoding: one word of every row, from R71, R74, R75, R77, R84, R132, R133 and R177 -/

theorem test_decode_event :
    decode (.ports 0#1 0b000#3 []) = .ok .nop ∧ decode (.ports 0#1 0b001#3 []) = .ok .start
    ∧ decode (.ports 0#1 0b010#3 [0xDD#8, 0x03#8]) = .ok (.chunk [0xDD#8, 0x03#8])
    ∧ decode (.ports 0#1 0b010#3 []) = .ok (.chunk []) ∧ decode (.ports 0#1 0b011#3 []) = .ok .timeout := by decide

theorem test_decode_reserved :
    decode (.ports 0#1 0b100#3 []) = .ok (.reserved 0b00#2) ∧ decode (.ports 0#1 0b101#3 []) = .ok (.reserved 0b01#2)
    ∧ decode (.ports 0#1 0b110#3 [0x77#8]) = .ok (.reserved 0b10#2)
    ∧ decode (.ports 0#1 0b111#3 []) = .ok (.reserved 0b11#2) := by decide

/-- R218: a reset replaces the event of its step. -/
theorem test_decode_reset_regport_sendreq :
    decode (.ports 1#1 0b000#3 []) = .ok .reset ∧ decode (.ports 1#1 0b001#3 []) = .ok .reset
    ∧ decode (.regport 0x8#4) = .ok (.read 0x8#4) ∧ decode (.sendreq 0xDDA50300FFFD77#56) = .ok .sendreq
    ∧ decode (.sendreq 0xDDA50300FFFD76#56) = .rejected .notTheRequest := by decide

theorem test_decode_frame :
    decode (.frame .startMarker [0xDD#8, 0x03#8]) = .ok (.startMarker [0xDD#8, 0x03#8])
    ∧ decode (.frame .term [0x77#8]) = .ok (.term [0x77#8]) := by decide

theorem test_decode_field :
    decode (.field ⟨0, 4, 16, true⟩ FS25) = .ok (.extVmain FS25)
    ∧ decode (.field ⟨2, 6, 16, true⟩ FS25) = .ok (.extImain FS25)
    ∧ decode (.field ⟨4, 8, 16, true⟩ FS25) = .ok (.extRemcap FS25)
    ∧ decode (.field ⟨6, 10, 16, true⟩ FS25) = .ok (.extNomcap FS25)
    ∧ decode (.field ⟨8, 12, 16, true⟩ FS25) = .ok (.extNcyc FS25)
    ∧ decode (.field ⟨16, 20, 16, false⟩ FS25) = .ok (.extProt FS25)
    ∧ decode (.field ⟨19, 23, 8, false⟩ FS25) = .ok (.extSoc FS25) := by decide

theorem test_decode_rejects_other_fields :
    decode (.field ⟨10, 14, 16, true⟩ FS25) = .rejected .noSuchField
    ∧ decode (.field ⟨16, 20, 16, true⟩ FS25) = .rejected .noSuchField
    ∧ decode (.field ⟨0, 4, 16, true⟩ FS24) = .rejected .frameNotValidated := by decide

/-- Q0 to Q6 and Q13. -/
theorem test_decode_prot_low :
    decode (.prot 0x0000#16) = .ok (.protOk 0x0000#16) ∧ decode (.prot 0x0001#16) = .ok (.protBit0 0x0001#16)
    ∧ decode (.prot 0x0002#16) = .ok (.protBit1 0x0002#16) ∧ decode (.prot 0x0004#16) = .ok (.protBit2 0x0004#16)
    ∧ decode (.prot 0x0008#16) = .ok (.protBit3 0x0008#16) ∧ decode (.prot 0x0010#16) = .ok (.protBit4 0x0010#16)
    ∧ decode (.prot 0x0020#16) = .ok (.protBit5 0x0020#16) ∧ decode (.prot 0x0040#16) = .ok (.protBit6 0x0040#16) := by
  decide

/-- Q7 to Q12. -/
theorem test_decode_prot_high :
    decode (.prot 0x0080#16) = .ok (.protBit7 0x0080#16) ∧ decode (.prot 0x0100#16) = .ok (.protBit8 0x0100#16)
    ∧ decode (.prot 0x0200#16) = .ok (.protBit9 0x0200#16) ∧ decode (.prot 0x0400#16) = .ok (.protBit10 0x0400#16)
    ∧ decode (.prot 0x0800#16) = .ok (.protBit11 0x0800#16)
    ∧ decode (.prot 0x1000#16) = .ok (.protBit12 0x1000#16) := by decide

/-- Words numbered as the opcode table numbers them. -/
theorem test_table_words :
    decodeTableWord 8 0b000 = some .nop ∧ decodeTableWord 8 0b001 = some .start
    ∧ decodeTableWord 8 0b010 = some (.chunk []) ∧ decodeTableWord 8 0b011 = some .timeout
    ∧ decodeTableWord 8 0b100 = some (.reserved 0b00#2) ∧ decodeTableWord 1 0b1 = some .reset
    ∧ decodeTableWord 4 0x0 = some (.read 0x0#4) ∧ decodeTableWord 56 0xDDA50300FFFD77 = some .sendreq
    ∧ decodeTableWord 16 0xDD03 = some (.startMarker [0xDD#8, 0x03#8])
    ∧ decodeTableWord 8 0x77 = some (.term [0x77#8]) ∧ decodeTableWord 16 0x0880 = some (.protBit11 0x0880#16) := by
  decide

theorem test_table_word_is_the_next_step :
    (stateOf (step (State.reset.withFetchWord 8 0b001))).map State.status = some 0x0011#16
    ∧ (stateOf (step (State.reset.withFetchWord 16 0x0880))).map (fun t => t.unitRec.pcode) = some 0xB#4 := by decide

/-! ### The sequencer: the vectors S1 to S26 of 95_test_vectors.md section 4 -/

/-- S1 and S4. -/
theorem test_start_nop_from_reset :
    statusAfter State.reset [.start] = some 0x0011#16 ∧ requestsOf State.reset [.start] = some 1
    ∧ statusAfter State.reset [.nop] = some 0x0000#16 := by decide

/-- S2 and S3. -/
theorem test_spurious_chunk_and_timeout :
    statusAfter State.reset [.chunk [0x77#8]] = some 0x0400#16
    ∧ statusAfter State.reset [.timeout] = some 0x0400#16 := by decide

/-- S5 and S6. -/
theorem test_ignored_start_and_reserved :
    statusAfter (stateAt .wait0 1 []) [.start] = some 0x0411#16
    ∧ statusAfter (stateAt .wait0 1 []) [.reserved 0b00#2] = some 0x0411#16 := by decide

/-- S7 and S8. -/
theorem test_first_chunk :
    statusAfter (stateAt .wait0 1 []) [.chunk (FX35.take 20)] = some 0x0012#16
    ∧ statusAfter (stateAt .wait0 1 []) [.chunk []] = some 0x0012#16 := by decide

set_option maxRecDepth 8192 in
/-- S9 and the capacity itself, 256 bytes. -/
theorem test_chunk_overflow :
    statusAfter (stateAt .wait0 1 []) [.chunk (List.replicate 257 0x00#8)] = some 0x0021#16
    ∧ statusAfter (stateAt .wait0 1 []) [.chunk (List.replicate 256 0x00#8)] = some 0x0012#16 := by decide

/-- S10, S14 and S15. -/
theorem test_timeout :
    statusAfter (stateAt .wait0 1 []) [.timeout] = some 0x0021#16
    ∧ statusAfter (stateAt .wait1 1 (FX35.take 20)) [.timeout] = some 0x0021#16
    ∧ statusAfter (stateAt .wait0 10 []) [.timeout] = some 0x01AC#16 := by decide

/-- S11: the literal fixture. -/
theorem test_second_chunk_decodes :
    statusAfter (stateAt .wait1 1 (FX35.take 20)) [.chunk (FX35.drop 20)] = some 0x081B#16
    ∧ (stateOf (exec (.chunk (FX35.drop 20)) (stateAt .wait1 1 (FX35.take 20)))).map State.regs
        = some { recFX34 with soc := 0x25#8 } := by decide

/-- S12 and S16. -/
theorem test_second_chunk_without_terminator :
    statusAfter (stateAt .wait1 1 (FN34.take 20)) [.chunk (FN34.drop 20)] = some 0x0021#16
    ∧ statusAfter (stateAt .wait1 10 (FN34.take 20)) [.chunk (FN34.drop 20)] = some 0x01AC#16 := by decide

/-- S13 and S17. -/
theorem test_second_chunk_malformed :
    statusAfter (stateAt .wait1 1 (FM34.take 20)) [.chunk (FM34.drop 20)] = some 0x021C#16
    ∧ statusAfter (stateAt .wait1 10 (FM34.take 20)) [.chunk (FM34.drop 20)] = some 0x02AC#16 := by decide

/-- S18, S19 and S20. -/
theorem test_after_done :
    statusAfter (failed .noResponse 10) [.chunk [0x77#8]] = some 0x05AC#16
    ∧ statusAfter (failed .noResponse 10) [.start] = some 0x0011#16
    ∧ (stateOf (exec .start (decoded recFX34))).map State.regs = some Record.cleared := by decide

/-- S21 to S23. -/
theorem test_empty_chunks :
    statusAfter (stateAt .wait0 1 []) [.chunk FX34, .chunk []] = some 0x081B#16
    ∧ statusAfter (stateAt .wait1 1 []) [.chunk []] = some 0x0021#16 := by decide

/-- S24. -/
theorem test_reset :
    statusAfter (decoded recFX34) [.reset] = some 0x0000#16
    ∧ (stateOf (exec .reset (decoded recFX34))).map State.regs = some Record.cleared := by decide

/-- S25 and S26: `FRAME_BUF_BYTES` = 34. -/
theorem test_capacity_34 :
    statusAfter (withParams 10 34 (stateAt .wait1 1 (FX34.take 20))) [.chunk (FX34.drop 20)] = some 0x081B#16
    ∧ statusAfter (withParams 10 34 (stateAt .wait1 1 (FX35.take 20))) [.chunk (FX35.drop 20)]
        = some 0x0021#16 := by decide

set_option maxRecDepth 8192 in
/-- Program 5: ignored events and an overflow; `IGN` stays set. -/
theorem test_program_5 :
    statusAfter State.reset
      [.start, .start, .reserved 0b11#2, .chunk (List.replicate 257 0x00#8), .chunk (FX34.take 20),
       .chunk (FX34.drop 20)] = some 0x0C2B#16 := by decide

/-- Program 6: `MAX_ATTEMPTS` = 2, and its variant that ends in a TIMEOUT. -/
theorem test_program_6 :
    statusAfter (withParams 2 256 State.reset) [.start, .chunk (FX35.take 20), .timeout, .chunk FX34, .chunk []]
      = some 0x082B#16
    ∧ statusAfter (withParams 2 256 State.reset) [.start, .chunk (FX35.take 20), .timeout, .chunk FX34, .timeout]
      = some 0x012C#16 := by decide

/-! ### The validator and the extractor: the vectors V1 to V13 and X1 to X15 -/

/-- V1 to V3 and V7. -/
theorem test_decodeFn_accepts :
    decodeFn FX35 = .ok { recFX34 with soc := 0x25#8 } ∧ decodeFn FX34 = .ok recFX34
    ∧ decodeFn FA34 = .ok { recFX34 with imain := 0xFF38#16, prot := 0x0880#16, pcode := 0xB#4 }
    ∧ decodeFn FS25 = .ok recFX34 := by decide

/-- V4 to V6 and V8 to V10. -/
theorem test_decodeFn_rejects :
    decodeFn FN34 = .malformedFrame ∧ decodeFn FM34 = .malformedFrame ∧ decodeFn FS24 = .malformedFrame
    ∧ decodeFn [] = .malformedFrame ∧ decodeFn [0xDD#8, 0x03#8, 0x77#8] = .malformedFrame
    ∧ decodeFn (FX34.set 0 0xDC#8) = .malformedFrame := by decide

/-- V11 to V13. -/
theorem test_decodeFn_ignores_undecoded_bytes :
    decodeFn (FX34.set 3 0xFF#8) = .ok recFX34 ∧ decodeFn ((FX34.set 31 0x00#8).set 32 0x00#8) = .ok recFX34
    ∧ decodeFn ((((((FX34.set 14 0xFF#8).set 15 0xFF#8).set 16 0xFF#8).set 17 0xFF#8).set 18 0xFF#8).set 19 0xFF#8
        |>.set 22 0xFF#8) = .ok recFX34 := by decide

/-- E1 and X1 to X9. -/
theorem test_signed_values :
    sext 0x0AF0#16 = 2800 ∧ sext 0x7FFF#16 = 32767 ∧ sext 0x8000#16 = -32768 ∧ sext 0xFFFF#16 = -1
    ∧ sext 0x0000#16 = 0 ∧ sext 0xFF38#16 = -200 ∧ sext 0x01F4#16 = 500 ∧ sext 0x1BB2#16 = 7090
    ∧ sext 0x2AEF#16 = 10991 := by decide

/-- The unit operations on `FA34` (V3). -/
theorem test_extractors :
    (stateOf (execAll [.extVmain FA34, .extImain FA34, .extRemcap FA34, .extNomcap FA34, .extNcyc FA34, .extProt FA34,
        .extSoc FA34, .protBit11 0x0880#16] State.reset)).map State.unitRec
      = some { recFX34 with imain := 0xFF38#16, prot := 0x0880#16, pcode := 0xB#4 } := by decide

/-- Log entry 7: a frame that lacks the last byte of the field. -/
theorem test_extractor_past_the_frame :
    faultOf (exec (.extSoc (FS25.take 23)) State.reset) = some .readPastFrame
    ∧ faultOf (exec (.extVmain [0xDD#8, 0x03#8, 0x00#8, 0x1B#8, 0x05#8]) State.reset) = some .readPastFrame := by decide

/-- R132, R133: a mismatch, and the match. -/
theorem test_frame_tests :
    (stateOf (exec (.startMarker FM34) State.reset)).map State.matched = some false
    ∧ (stateOf (exec (.startMarker FX34) State.reset)).map State.matched = some true
    ∧ (stateOf (exec (.term FN34) State.reset)).map State.matched = some false
    ∧ (stateOf (exec (.term FX34) State.reset)).map State.matched = some true := by decide

/-- R77. -/
theorem test_sendreq :
    (stateOf (exec .sendreq State.reset)).map State.out
      = some [.sendReq [0xDD#8, 0xA5#8, 0x03#8, 0x00#8, 0xFF#8, 0xFD#8, 0x77#8]] := by decide

/-! ### The protection encoder: Q0 to Q23 -/

/-- Q14 to Q23. -/
theorem test_prio :
    prio 0x2000#16 = 0xF#4 ∧ prio 0x8000#16 = 0xF#4 ∧ prio 0xE000#16 = 0xF#4 ∧ prio 0x0003#16 = 0x1#4
    ∧ prio 0x0880#16 = 0xB#4 ∧ prio 0x1FFF#16 = 0xC#4 ∧ prio 0xFFFF#16 = 0xC#4 ∧ prio 0x2001#16 = 0x0#4
    ∧ prio 0x1001#16 = 0xC#4 ∧ prio 0x0600#16 = 0xA#4 := by decide

/-- Q0 to Q12: the code and the label of each single bit (R174). -/
theorem test_labels :
    (List.range 13).map (fun n => label (prio (BitVec.ofNat 16 (2 ^ n))))
      = ["CellBlockOverVolt", "CellBlockUnderVol", "BatteryOverVol", "BatteryUnderVol", "ChargingOverTemp",
         "ChargingLowTemp", "DischargingOverTemp", "DischargingLowTemp", "ChargingOverCurrent",
         "DischargingOverCurrent", "ShortCircuit", "ForeEndICError", "MOSSoftwareLockIn"].map some := by decide

/-- Q13, Q18. -/
theorem test_bin16 :
    label (prio 0x0000#16) = some "ok" ∧ String.ofList (bin16 0x0880#16) = "0000100010000000"
    ∧ String.ofList (bin16 0xE000#16) = "1110000000000000" := by decide

/-- A row changes nothing on a word it does not apply to (R177). -/
theorem test_row_elsewhere :
    stateOf (exec (.protBit7 0x0880#16) State.reset) = some State.reset := by decide

/-! ### Register reads, the host's output and the script notation -/

/-- The reads after S11, and an unmapped index. -/
theorem test_reads :
    ([0x0#4, 0x1#4, 0x2#4, 0x3#4, 0x4#4, 0x5#4, 0x6#4, 0x7#4, 0x8#4, 0x9#4, 0xF#4].map
        (fun i => (stateOf (exec (.read i) (decoded { recFX34 with soc := 0x25#8 }))).map State.rdata))
      = [0x081B#16, 0x0528#16, 0x0000#16, 0x1BB2#16, 0x2AEF#16, 0x0002#16, 0x0000#16, 0x0025#16, 0x000F#16, 0x0000#16,
         0x0000#16].map some := by decide

/-- The rendering after S11 (R194). -/
theorem test_host_output :
    (decoded { recFX34 with soc := 0x25#8 }).hostOutput
      = .members
          [("Vmain", .number 1320 100), ("Imain", .number 0 100), ("RemainCap", .number 7090 100),
           ("NominalCap", .number 10991 100), ("NumberCycles", .number 2 1), ("ProtectState", .number 0 1),
           ("ProtectStateBin", .text "0000000000000000"), ("SoC", .number 37 1), ("ProtectStateText", .text "ok")] := by
  decide

/-- R193, and R195, R197 with 91_not_in_source.md 44-1: each text of the host stands in its own place. -/
theorem test_render :
    HostObject.empty.render ⟨fun _ _ => "n", "a", "b", "c", "d", "e", "f", "g"⟩ = "\x7b\x7d"
    ∧ (HostObject.members [("K", .number 1 1), ("L", .text "t")]).render ⟨fun _ _ => "n", "a", "b", "c", "d", "e", "f", "g"⟩
        = "\x7ba\"K\"d:enb,c\"L\"d:e\"t\"f\x7dg" := by decide

/-- R193, R246: an exhausted cycle, and a cycle in progress. -/
theorem test_host_output_without_record :
    (failed .noResponse 10).hostOutput = .empty ∧ (stateAt .wait1 1 []).hostOutput = .empty := by decide

/-- The output and the number of moves of a poll. -/
def pollEnds (connected : Bool) (ds : List Delivery) : Option (Option HostObject × Nat) :=
  match poll connected ds State.reset with
  | .next p => some (p.output, p.presented.length)
  | .fault _ => none
  | .refused _ => none

/-- R243, Program 1: reset, START, two chunks and nine reads; the third delivery is not made, because `DONE` = 1. -/
theorem test_poll_of_the_fixture :
    pollEnds true [.bytes (FX35.take 20), .bytes (FX35.drop 20), .timedOut]
      = some (some (successObject { recFX34 with soc := 0x25#8 }), 13) := by decide

/-- R243, E6 (reset, START, ten timeouts, one read), R192 (no connection) and R114 (the host still waits). -/
theorem test_poll_without_record :
    pollEnds true (List.replicate 10 .timedOut) = some (some .empty, 13)
    ∧ pollEnds false [] = some (some .empty, 1) ∧ pollEnds true [.timedOut] = some (none, 3) := by decide

/-- R7: 9 bits at the default, and the widths on both sides of a power of two. -/
theorem test_bufLen_width :
    bufLenBits Config.default = 9 ∧ bufLenBits ⟨10, 255⟩ = 8 ∧ bufLenBits ⟨10, 25⟩ = 5
    ∧ (stateAt .wait1 1 (FX35.take 20)).bufLenReg.toNat = 20 := by decide

/-- R86. -/
theorem test_script_lines :
    readLine ['C', 'H', 'U', 'N', 'K', ' ', 'F', 'C', ' ', '7', '7', ' ', ';', 'x']
      = some [.ports 0#1 0b010#3 [0xFC#8, 0x77#8]]
    ∧ readLine ['C', 'H', 'U', 'N', 'K', ' ', '-'] = some [.ports 0#1 0b010#3 []]
    ∧ readLine ['E', 'V', ' ', '1', ' ', '1', ' ', '0'] = some [.ports 0#1 0b110#3 []]
    ∧ readLine ['E', 'V', ' ', '0', ' ', '1', ' ', '0'] = some [.ports 0#1 0b010#3 []]
    ∧ readLine ['R', 'E', 'A', 'D', ' ', 'S', 'O', 'C'] = some [.regport 0x7#4]
    ∧ readLine ['R', 'E', 'A', 'D', ' ', '0', 'x', 'A'] = some [.regport 0xA#4]
    ∧ readLine ['S', 'T', 'O', 'P'] = none := by decide

/-- R87. -/
theorem test_script_pseudo_transactions :
    readLine ['R', 'E', 'P', 'L', 'Y', ' ', 'D', 'D', ' ', '0', '3', ' ', '7', '7', ' ', '@', '2']
      = some [.ports 0#1 0b010#3 [0xDD#8, 0x03#8], .ports 0#1 0b010#3 [0x77#8]]
    ∧ readLine ['R', 'E', 'A', 'D', 'R', 'E', 'C']
      = some ([0x0#4, 0x1#4, 0x2#4, 0x3#4, 0x4#4, 0x5#4, 0x6#4, 0x7#4, 0x8#4].map Txn.regport) := by decide

/-! ### Witnesses: for each obligation with hypotheses, states and operands that meet all of them

`witness_X` is for `Obligations.X`. A state in a waiting phase with `BUF` filled meets the invariant as well. -/

/-- Transactions waiting to be presented. -/
def presenting (ts : List Txn) (s : State) : State := { s with pending := ts }

theorem witness_DecodeOfEncodeIsTheOperation :
    (Instr.chunk FX35).wellFormed = true ∧ (Instr.extSoc FS25).wellFormed = true
    ∧ (Instr.protBit12 0xFFFF#16).wellFormed = true ∧ (Instr.read 0xF#4).wellFormed = true := by decide

theorem witness_DecoderAnswersWellFormed : decode (.field ⟨19, 23, 8, false⟩ FS25) = .ok (.extSoc FS25) := by decide

/-- One transaction for each shape the statement tells apart. -/
theorem witness_EncodeOfDecodeIsTheTransaction :
    decode (.ports 1#1 0b010#3 [0x77#8]) = .ok .reset ∧ decode (.ports 0#1 0b010#3 [0x77#8]) = .ok (.chunk [0x77#8])
    ∧ decode (.ports 0#1 0b111#3 [0x77#8]) = .ok (.reserved 0b11#2) ∧ decode (.regport 0x0#4) = .ok (.read 0x0#4)
    ∧ decode (.prot 0xE000#16) = .ok (.protOk 0xE000#16) := by decide

theorem witness_StepRunsTheDecodedOperation :
    let s := presenting [.regport 0x0#4, .prot 0x0001#16] (stateAt .wait1 1 [0xDD#8])
    s.cfg.valid = true ∧ s.pending = .regport 0x0#4 :: [.prot 0x0001#16]
      ∧ decode (.regport 0x0#4) = .ok (.read 0x0#4) := by decide

theorem witness_StepWithoutEventWaits :
    State.reset.cfg.valid = true ∧ State.reset.pending = [] ∧ (stateAt .wait1 3 [0xDD#8]).pending = [] := by decide

/-- Parameters just outside R6, and a word that is not `REQ`. -/
theorem witness_StepRefusesOnlyBadParametersOrForeignWords :
    refusalOf (step (withParams 0 256 State.reset)) = some .unsupportedConfig
    ∧ refusalOf (step (withParams 16 256 State.reset)) = some .unsupportedConfig
    ∧ refusalOf (step (withParams 10 24 State.reset)) = some .unsupportedConfig
    ∧ refusalOf (step (presenting [.sendreq 0#56] State.reset)) = some (.undecodable .notTheRequest) := by decide

theorem witness_HostMovesAlwaysComplete :
    let s := presenting [.ports 0#1 0b010#3 FX35, .regport 0xF#4] (withParams 1 25 (stateAt .wait1 1 [0xDD#8]))
    s.cfg.valid = true ∧ s.pending = .ports 0#1 0b010#3 FX35 :: [.regport 0xF#4]
      ∧ Txn.hostMove (.ports 0#1 0b010#3 FX35) = true ∧ Txn.hostMove (.regport 0xF#4) = true := by decide

/-- A state that holds part of a frame, and the step that completes it. -/
theorem witness_EveryStepKeepsTheInvariant :
    let s := presenting [.ports 0#1 0b010#3 (FX35.drop 20)] (stateAt .wait1 10 (FX35.take 20))
    s.Inv ∧ ∃ t, step s = .next t ∧ t.phase = .doneOk := ⟨by decide, _, rfl, by decide⟩

/-- A host that resets a state which does not meet R35 and then polls. -/
theorem witness_RunsThatResetFirstMeetR35 :
    let s := presenting [encode .reset, encode .start, encode .timeout] (stateAt .doneOk 0 [0x77#8])
    s.cfg.valid = true ∧ s.pending ≠ [] ∧ resetsFirst s.pending = true ∧ ¬ s.sequencerInv
      ∧ ∃ t, Host.Core.run Sys2Proof.core (2 + 1) s = .next t ∧ t.attempt = 2#4 :=
  ⟨by decide, by decide, by decide, by decide, _, rfl, by decide⟩

theorem witness_StartBeginsACycleOrIsIgnored :
    (stateAt .wait0 1 []).phase = .wait0 ∧ (stateAt .wait1 1 []).phase = .wait1 ∧ State.reset.phase = .idle ∧ (decoded recFX34).phase = .doneOk
    ∧ (failed .malformedFrame 3).phase = .doneFail := by decide

theorem witness_ChunkOutsideAnAttemptOnlySetsIgn :
    State.reset.phase = .idle ∧ (decoded recFX34).phase = .doneOk ∧ (failed .noResponse 10).phase = .doneFail := by
  decide

/-- An attempt with one more to come, the last one, and no attempt. -/
theorem witness_TimeoutFailsTheAttemptOrIsIgnored :
    let s := stateAt .wait1 9 (FX35.take 20)
    s.cfg.valid = true ∧ s.phase = .wait1 ∧ s.attempt.toNat < s.cfg.maxAttempts
    ∧ (stateAt .wait0 10 []).cfg.maxAttempts ≤ (stateAt .wait0 10 []).attempt.toNat
    ∧ State.reset.cfg.valid = true ∧ State.reset.phase = .idle := by decide

/-- One byte too many, as the first chunk and as the second. -/
theorem witness_OverflowingChunkStoresNothing :
    let s := withParams 10 25 (stateAt .wait0 1 [])
    let u := withParams 10 25 (stateAt .wait1 10 (FX35.take 20))
    s.cfg.valid = true ∧ s.phase = .wait0 ∧ s.cfg.frameBufBytes < s.bufLen + (FX35.take 26).length
      ∧ u.cfg.valid = true ∧ u.phase = .wait1 ∧ u.cfg.frameBufBytes < u.bufLen + (FX35.take 6).length := by decide

/-- A chunk that fills the buffer, and the empty one. -/
theorem witness_FirstChunkIsStored :
    let s := withParams 10 25 (stateAt .wait0 1 [])
    s.buf.wf ∧ s.phase = .wait0 ∧ s.bufLen + (FX35.take 25).length ≤ s.cfg.frameBufBytes
      ∧ s.bufLen + ([] : List Byte).length ≤ s.cfg.frameBufBytes := by decide

/-- A frame that ends in 0x00, and no byte at all. -/
theorem witness_SecondChunkWithoutTerminatorFails :
    let s := withParams 10 34 (stateAt .wait1 10 (FN34.take 20))
    let u := stateAt .wait1 1 []
    s.cfg.valid = true ∧ s.buf.wf ∧ s.phase = .wait1 ∧ s.bufLen + (FN34.drop 20).length ≤ s.cfg.frameBufBytes
      ∧ (s.frame ++ FN34.drop 20).getLast? ≠ some 0x77#8
      ∧ u.phase = .wait1 ∧ (u.frame ++ ([] : List Byte)).getLast? ≠ some 0x77#8 := by decide

/-- The shortest frame, in a buffer that it fills. -/
theorem witness_SecondChunkDecodesTheFrame :
    let s := withParams 10 25 (stateAt .wait1 1 (FS25.take 20))
    s.buf.wf ∧ s.phase = .wait1 ∧ s.bufLen + (FS25.drop 20).length ≤ s.cfg.frameBufBytes
      ∧ 25 ≤ (s.frame ++ FS25.drop 20).length ∧ (s.frame ++ FS25.drop 20)[0]? = some 0xDD#8
      ∧ (s.frame ++ FS25.drop 20)[1]? = some 0x03#8 ∧ (s.frame ++ FS25.drop 20).getLast? = some 0x77#8 := by decide

/-- One byte short; a bad second byte; a bad first byte. -/
theorem witness_MalformedFrameIsFinal :
    let s := stateAt .wait1 10 (FS24.take 20)
    let u := stateAt .wait1 1 (FM34.take 20)
    let v := stateAt .wait1 1 [0xDC#8]
    s.buf.wf ∧ s.phase = .wait1 ∧ s.bufLen + (FS24.drop 20).length ≤ s.cfg.frameBufBytes
      ∧ (s.frame ++ FS24.drop 20).getLast? = some 0x77#8 ∧ (s.frame ++ FS24.drop 20).length < 25
      ∧ u.phase = .wait1 ∧ (u.frame ++ FM34.drop 20).getLast? = some 0x77#8
      ∧ (u.frame ++ FM34.drop 20)[1]? ≠ some 0x03#8
      ∧ v.phase = .wait1 ∧ (v.frame ++ FX34.drop 1).getLast? = some 0x77#8
      ∧ (v.frame ++ FX34.drop 1)[0]? ≠ some 0xDD#8 := by decide

/-- Each of the five kinds of move. -/
theorem witness_PhaseMovesOnlyAlongTheTable :
    (∃ t, exec .reset (stateAt .wait1 1 []) = .next t ∧ t.phase = .idle)
    ∧ (∃ t, exec .start (decoded recFX34) = .next t ∧ t.phase = .wait0)
    ∧ (∃ t, exec .timeout (stateAt .wait1 1 []) = .next t ∧ t.phase = .wait0)
    ∧ (∃ t, exec (.chunk []) (stateAt .wait0 1 []) = .next t ∧ t.phase = .wait1)
    ∧ ∃ t, exec (.chunk (FX35.drop 20)) (stateAt .wait1 1 (FX35.take 20)) = .next t ∧ t.phase = .doneOk :=
  ⟨⟨_, rfl, by decide⟩, ⟨_, rfl, by decide⟩, ⟨_, rfl, by decide⟩, ⟨_, rfl, by decide⟩, ⟨_, rfl, by decide⟩⟩

theorem witness_DoneIsLeftByStartOrResetOnly :
    (decoded recFX34).done = true ∧ (∃ t, exec .start (decoded recFX34) = .next t ∧ t.phase = .wait0)
    ∧ ∃ t, exec .reset (decoded recFX34) = .next t ∧ t.phase = .idle :=
  ⟨by decide, ⟨_, rfl, by decide⟩, ⟨_, rfl, by decide⟩⟩

/-- Each of the three writers of the record. -/
theorem witness_RecordIsWrittenByCompleteStartAndResetOnly :
    (stateAt .wait1 1 (FX35.take 20)).buf.wf
    ∧ (∃ t, exec (.chunk (FX35.drop 20)) (stateAt .wait1 1 (FX35.take 20)) = .next t
        ∧ t.regs ≠ (stateAt .wait1 1 (FX35.take 20)).regs)
    ∧ (∃ t, exec .start (decoded recFX34) = .next t ∧ t.regs ≠ recFX34)
    ∧ ∃ t, exec .reset (decoded recFX34) = .next t ∧ t.regs ≠ recFX34 :=
  ⟨by decide, ⟨_, rfl, by decide⟩, ⟨_, rfl, by decide⟩, ⟨_, rfl, by decide⟩⟩

/-- A chunk whose first byte is not what `BUF` held, and a reset of a `BUF` that is not blank. -/
theorem witness_OnlyChunkWritesTheBuffer :
    (stateAt .wait0 1 []).buf.wf
    ∧ (∃ t, exec (.chunk [0xDD#8]) (stateAt .wait0 1 []) = .next t ∧ ¬ (stateAt .wait0 1 []).sameBuf t)
    ∧ ∃ t, exec .reset (stateAt .wait1 1 [0xDD#8]) = .next t ∧ ¬ (stateAt .wait1 1 [0xDD#8]).sameBuf t :=
  ⟨by decide, ⟨_, rfl, fun h => absurd (h 0) (by decide)⟩, ⟨_, rfl, fun h => absurd (h 0) (by decide)⟩⟩

/-- `IGN` is cleared by an accepted START and set by an ignored chunk; the READ is of an index other than 0. -/
theorem witness_IgnIsStickyAndInert :
    (∃ t, exec .start { State.reset with ign := true } = .next t ∧ t.ign = false)
    ∧ (∃ t, exec (.chunk []) State.reset = .next t ∧ State.reset.ign = false ∧ t.ign = true)
    ∧ ignoredIn (.chunk []) State.reset ∧ Instr.read 0x1#4 ≠ .read 0x0#4 :=
  ⟨⟨_, rfl, by decide⟩, ⟨_, rfl, by decide⟩, .inr (.inl ⟨.inl ⟨[], rfl⟩, by decide⟩), by decide⟩

theorem witness_SendReqExactlyWhenAnAttemptStarts :
    Instr.timeout.blockStep = true ∧ (∃ t, exec .timeout (stateAt .wait0 1 []) = .next t ∧ t.out.length = 1)
    ∧ ∃ t, exec .timeout (stateAt .wait0 10 []) = .next t ∧ t.out = [] :=
  ⟨by decide, ⟨_, rfl, by decide⟩, ⟨_, rfl, by decide⟩⟩

/-- The two errors. -/
theorem witness_ErrorEntryWritesErrAndPhase :
    (stateAt .wait1 10 (FM34.take 20)).Inv
    ∧ (∃ t, exec .timeout (stateAt .wait1 10 (FM34.take 20)) = .next t ∧ t.phase = .doneFail)
    ∧ ∃ t, exec (.chunk (FM34.drop 20)) (stateAt .wait1 10 (FM34.take 20)) = .next t ∧ t.phase = .doneFail :=
  ⟨by decide, ⟨_, rfl, by decide⟩, ⟨_, rfl, by decide⟩⟩

/-- Each of the three causes. -/
theorem witness_NoResponseMeansTheLastAttemptFailed :
    let s := stateAt .wait1 10 (FN34.take 20)
    let u := withParams 10 25 s
    s.Inv ∧ u.Inv ∧ (∃ t, exec .timeout s = .next t ∧ t.err = .noResponse ∧ s.err ≠ .noResponse)
      ∧ (∃ t, exec (.chunk (FN34.drop 20)) s = .next t ∧ t.err = .noResponse)
      ∧ ∃ t, exec (.chunk (FN34.drop 28)) u = .next t ∧ t.err = .noResponse :=
  ⟨by decide, by decide, ⟨_, rfl, by decide⟩, ⟨_, rfl, by decide⟩, ⟨_, rfl, by decide⟩⟩

theorem witness_MalformedFrameMeansShortOrBadMarker :
    let s := stateAt .wait1 1 (FM34.take 20)
    s.buf.wf ∧ ∃ t, exec (.chunk (FM34.drop 20)) s = .next t ∧ t.err = .malformedFrame ∧ s.err ≠ .malformedFrame :=
  ⟨by decide, _, rfl, by decide⟩

/-- A cycle of one attempt that is timed out. -/
theorem witness_RequestsOfACycleStayInTheBudget :
    let s := withParams 1 25 State.reset
    s.Inv ∧ s.phase.waiting = false ∧ staysInCycle [.timeout] s.newCycle
      ∧ ∃ t, execAll [.start, .timeout] s = .next t ∧ t.err = .noResponse :=
  ⟨by decide, by decide, ⟨by decide, by decide, by decide, fun _ _ => trivial⟩, _, rfl, by decide⟩

/-- A cycle of one attempt, with as many deliveries as the bound asks for. -/
theorem witness_CycleEndsWithinTwiceTheBudget :
    let s := withParams 1 25 State.reset
    s.Inv ∧ s.phase.waiting = false ∧ staysInCycle [.chunk [0xDD#8], .timeout] s.newCycle
      ∧ (∃ t, execAll [.start, .chunk [0xDD#8], .timeout] s = .next t ∧ t.done = true)
      ∧ 2 * s.cfg.maxAttempts ≤ [Instr.chunk [0xDD#8], .timeout].countP Instr.delivery :=
  ⟨by decide, by decide,
    ⟨by decide, by decide, by decide, fun _ _ => ⟨by decide, by decide, nofun, fun _ _ => trivial⟩⟩,
    ⟨_, rfl, by decide⟩, by decide⟩

/-- A reply that fills the buffer. -/
theorem witness_SplitPointOfAReplyIsInvisible :
    let s := withParams 10 34 (stateAt .wait0 1 [])
    s.Inv ∧ s.phase = .wait0 ∧ FX34.length ≤ s.cfg.frameBufBytes := by decide

/-- Two states whose `BUF` differ at `BUF_LEN`, where the second chunk will be stored. -/
theorem witness_StaleBufferBytesAreNeverRead :
    let s := presenting [encode (.chunk (FX35.drop 20))] (stateAt .wait1 1 (FX35.take 20))
    let u := { s with buf := s.buf.write 20 0x77#8 }
    s.buf.wf ∧ u.buf.wf ∧ s.sameButStale u ∧ s.buf ≠ u.buf ∧ ∃ t, step s = .next t ∧ t.phase = .doneOk :=
  ⟨by decide, by decide,
    ⟨⟨rfl, rfl, rfl, rfl, rfl, rfl, rfl⟩, ⟨rfl, rfl, rfl, rfl, rfl⟩, rfl, by decide⟩, by decide, _, rfl, by decide⟩

theorem witness_ReadsAndUnitOperationsLeaveTheBlockAlone :
    (Instr.read 0x0#4).blockStep = false ∧ Instr.sendreq.blockStep = false
    ∧ (∃ t, exec (.read 0x0#4) (decoded recFX34) = .next t ∧ t.rdata = 0x081B#16)
    ∧ ∃ t, exec .sendreq State.reset = .next t ∧ t.out.length = 1 :=
  ⟨by decide, by decide, ⟨_, rfl, by decide⟩, ⟨_, rfl, by decide⟩⟩

theorem witness_DecodeFnExtractsTheFields :
    decodeFn FA34 = .ok { recFX34 with imain := 0xFF38#16, prot := 0x0880#16, pcode := 0xB#4 } := by decide

/-- Frames that differ in a byte of each undecoded range, at its ends. -/
theorem witness_UndecodedBytesChangeNothing :
    let g := (((((FX34.set 2 0xFF#8).set 3 0xFF#8).set 14 0xFF#8).set 19 0xFF#8).set 22 0xFF#8).set 24 0xFF#8
      |>.set 32 0xFF#8
    FX34.length = g.length ∧ FX34 ≠ g
      ∧ ∀ i, i < FX34.length →
          FX34.getD i 0#8 = g.getD i 0#8 ∨ i = 2 ∨ i = 3 ∨ (14 ≤ i ∧ i ≤ 19) ∨ i = 22
            ∨ (24 ≤ i ∧ i + 2 ≤ FX34.length) := by decide

/-- The last addresses at which a read of each width has a value, and the first at which it has none. -/
theorem witness_MemReadIsBigEndian :
    let s := stateAt .wait1 1 (FX35.take 20)
    19 + 1 ≤ s.bufLen ∧ 18 + 2 ≤ s.bufLen ∧ s.bufLen < 20 + 1 ∧ s.bufLen < 19 + 2 := by decide

theorem witness_ExtractorsReadTheBuffer :
    let s := stateAt .wait1 1 (FX35.take 20)
    4 + 14 + 2 ≤ s.bufLen ∧ 4 + 15 + 1 ≤ s.bufLen := by decide

theorem witness_StoredBytesReadBack : Memory.wf [(0, 0xDD#8), (3, 0x1B#8)] := by decide

/-- The shortest string for each extractor. -/
theorem witness_ExtractorsCompleteOnTheirBytes :
    6 ≤ (FX35.take 6).length ∧ 8 ≤ (FX35.take 8).length ∧ 10 ≤ (FX35.take 10).length ∧ 12 ≤ (FX35.take 12).length
    ∧ 14 ≤ (FX35.take 14).length ∧ 22 ≤ (FX35.take 22).length ∧ 24 ≤ (FX35.take 24).length := by decide

/-- The longest string on which each extractor stops. -/
theorem witness_ExtractorsStopPastTheFrame :
    (FX35.take 5).length < 6 ∧ (FX35.take 7).length < 8 ∧ (FX35.take 9).length < 10 ∧ (FX35.take 11).length < 12
    ∧ (FX35.take 13).length < 14 ∧ (FX35.take 21).length < 22 ∧ (FX35.take 23).length < 24 := by decide

theorem witness_UnitOperationsBuildTheRecord : validFrame FA34 = true ∧ validFrame FS25 = true := by decide

/-- For each row the word with all the bits set that it does not look at. -/
theorem witness_ProtectionRowsComplete :
    0xE000#16 &&& 0x1FFF#16 = 0x0000#16 ∧ 0xE001#16 &&& 0x1FFF#16 = 0x0001#16 ∧ 0xE003#16 &&& 0x1FFE#16 = 0x0002#16
    ∧ 0xE007#16 &&& 0x1FFC#16 = 0x0004#16 ∧ 0xE00F#16 &&& 0x1FF8#16 = 0x0008#16
    ∧ 0xE01F#16 &&& 0x1FF0#16 = 0x0010#16 ∧ 0xE03F#16 &&& 0x1FE0#16 = 0x0020#16
    ∧ 0xE07F#16 &&& 0x1FC0#16 = 0x0040#16 ∧ 0xE0FF#16 &&& 0x1F80#16 = 0x0080#16
    ∧ 0xE1FF#16 &&& 0x1F00#16 = 0x0100#16 ∧ 0xE3FF#16 &&& 0x1E00#16 = 0x0200#16
    ∧ 0xE7FF#16 &&& 0x1C00#16 = 0x0400#16 ∧ 0xEFFF#16 &&& 0x1800#16 = 0x0800#16
    ∧ 0xFFFF#16 &&& 0x1000#16 = 0x1000#16 := by decide

theorem witness_ExactlyOneProtectionRowApplies :
    row11 ∈ protRows ∧ row11.applies 0xEFFF#16 = true ∧ rowOk ∈ protRows ∧ rowOk.applies 0xE000#16 = true := by decide

theorem witness_ProtectionWordRunsThePriorityEncoder :
    let s := presenting [.prot 0xFFFF#16] State.reset
    s.cfg.valid = true ∧ s.pending = [.prot 0xFFFF#16] := by decide

theorem witness_Bin16ShowsBitFifteenFirst :
    (0 : Nat) ≤ 15 ∧ (bin16 0x8000#16)[0]? = some '1' ∧ (15 : Nat) ≤ 15 ∧ (bin16 0x8000#16)[15]? = some '0' := by decide

theorem witness_ReadGivesTheMappedRegister : 9 ≤ (0x9#4 : BitVec 4).toNat ∧ 9 ≤ (0xF#4 : BitVec 4).toNat := by decide

theorem witness_RecordIsUsableExactlyInDoneOk :
    (decoded recFX34).Inv ∧ (decoded recFX34).phase = .doneOk ∧ (decoded recFX34).recordUsable = true
    ∧ (failed .noResponse 10).Inv ∧ (failed .noResponse 10).recordUsable = false :=
  ⟨by decide, by decide, by decide, by decide, by decide⟩

/-- A cycle in progress, a failed one and a decoded one; the polls of `test_poll_of_the_fixture` and
`test_poll_without_record` are those of each case. -/
theorem witness_HostOutputOfACycle :
    (stateAt .wait1 10 FX35).Inv ∧ (stateAt .wait1 10 FX35).phase ≠ .doneOk
    ∧ (failed .noResponse 10).Inv ∧ (failed .noResponse 10).phase ≠ .doneOk
    ∧ (decoded recFX34).Inv ∧ (decoded recFX34).phase = .doneOk :=
  ⟨by decide, by decide, by decide, by decide, by decide, by decide⟩

end Sys2Proof.Tests.Slice0
end

section
/-! The obligations of 00_scope.md: every step keeps the invariant of R35, how long one poll cycle lasts and how many
requests it emits (R106, R113), when a step is refused, and the signed reading of a field (R151). -/

namespace Sys2Proof.Machine

/-! ### The nine invariants of R35, phase by phase -/

theorem State.sequencerInv_iff_of_waiting (s : State) (hw : s.phase.waiting = true) :
    s.sequencerInv ↔ s.bufLen ≤ s.cfg.frameBufBytes ∧ (1 ≤ s.attempt.toNat ∧ s.attempt.toNat ≤ s.cfg.maxAttempts)
      ∧ (s.phase = .wait0 → s.bufLen = 0) ∧ s.recValid = false ∧ s.err = .none ∧ s.regs = Record.cleared := by
  rcases (Phase.waiting_iff _).1 hw with hp | hp <;> simp only [State.sequencerInv, State.done, hp] <;> grind

theorem State.sequencerInv_iff_of_doneOk (s : State) (hp : s.phase = .doneOk) :
    s.sequencerInv ↔ s.bufLen = 0 ∧ (1 ≤ s.attempt.toNat ∧ s.attempt.toNat ≤ s.cfg.maxAttempts)
      ∧ s.recValid = true ∧ s.err = .none := by
  simp only [State.sequencerInv, State.done, hp]
  grind

theorem State.sequencerInv_iff_of_doneFail (s : State) (hp : s.phase = .doneFail) :
    s.sequencerInv ↔ s.bufLen = 0 ∧ (1 ≤ s.attempt.toNat ∧ s.attempt.toNat ≤ s.cfg.maxAttempts)
      ∧ s.recValid = false ∧ s.err ≠ .none ∧ (s.err = .noResponse → s.attempt.toNat = s.cfg.maxAttempts)
      ∧ s.regs = Record.cleared := by
  simp only [State.sequencerInv, State.done, hp]
  grind

/-! ### What each operation does to the invariant -/

theorem Record.cleared_label : Record.cleared.pcode = prio Record.cleared.prot := by decide

/-- A frame that is accepted gives the record of its fields (R136). -/
theorem decodeFn_ok (f : List Byte) (r : Record) (h : decodeFn f = .ok r) : r = extract f := by
  unfold decodeFn at h
  repeat' split at h
  all_goals cases h
  rfl

theorem decodeFn_label (f : List Byte) (r : Record) (h : decodeFn f = .ok r) : r.pcode = prio r.prot := by
  rw [decodeFn_ok f r h]
  rfl

/-- The attempt counter never wraps within the budget of R6. -/
theorem attempt_succ_toNat (s : State) (hv : s.cfg.valid = true) (h : s.attempt.toNat < s.cfg.maxAttempts) :
    (s.attempt + 1#4).toNat = s.attempt.toNat + 1 := by
  have hmax : s.cfg.maxAttempts ≤ 15 := by simp_all [Config.valid]
  rw [BitVec.toNat_add]
  simp only [BitVec.toNat_ofNat]
  omega

/-- Starting an attempt inside the budget with a clean outcome (R102). -/
theorem State.inv_startAttempt (s : State) (hv : s.cfg.valid = true) (hb : s.bufferInv)
    (ha : 1 ≤ s.attempt.toNat ∧ s.attempt.toNat ≤ s.cfg.maxAttempts) (hr : s.recValid = false)
    (he : s.err = .none) (hc : s.regs = Record.cleared) : s.startAttempt.Inv := by
  obtain ⟨hwf, hlt, -⟩ := hb
  refine ⟨hv, ?_, ⟨hwf, hlt, Nat.two_pow_pos _⟩, ?_⟩
  · exact (State.sequencerInv_iff_of_waiting _ rfl).2 ⟨Nat.zero_le _, ha, fun _ => rfl, hr, he, hc⟩
  · show s.regs.pcode = prio s.regs.prot
    rw [hc]
    exact Record.cleared_label

theorem State.inv_newCycle (s : State) (hv : s.cfg.valid = true) (hb : s.bufferInv) : s.newCycle.Inv := by
  have hmax : 1 ≤ s.cfg.maxAttempts := by simp_all [Config.valid]
  exact State.inv_startAttempt _ hv hb ⟨Nat.le_refl 1, hmax⟩ rfl rfl rfl

theorem State.inv_failAttempt (s : State) (h : s.Inv) (hw : s.phase.waiting = true) : s.failAttempt.Inv := by
  obtain ⟨hv, hseq, hbuf, hlab⟩ := h
  obtain ⟨-, ⟨hpos, hle⟩, -, hr, he, hc⟩ := (s.sequencerInv_iff_of_waiting hw).1 hseq
  rcases s.failAttempt_cases with ⟨hlt, ht⟩ | ⟨hlast, ht⟩
  · rw [ht]
    have hsucc := attempt_succ_toNat s hv hlt
    exact State.inv_startAttempt _ hv hbuf ⟨by simp only [hsucc]; omega, by simp only [hsucc]; omega⟩ hr he hc
  · rw [ht]
    obtain ⟨hwf, hcells, -⟩ := hbuf
    refine ⟨hv, (State.sequencerInv_iff_of_doneFail _ rfl).2 ?_, ⟨hwf, hcells, Nat.two_pow_pos _⟩, hlab⟩
    exact ⟨rfl, ⟨hpos, hle⟩, hr, nofun, fun _ => Nat.le_antisymm hle hlast, hc⟩

theorem State.inv_complete (s : State) (h : s.Inv) (hw : s.phase.waiting = true) : s.complete.Inv := by
  obtain ⟨hv, hseq, ⟨hwf, hcells, -⟩, hlab⟩ := h
  obtain ⟨-, ha, -, hr, -, hc⟩ := (s.sequencerInv_iff_of_waiting hw).1 hseq
  rcases s.complete_cases with ⟨r, hd, ht⟩ | ⟨-, ht⟩
  · rw [ht]
    exact ⟨hv, (State.sequencerInv_iff_of_doneOk _ rfl).2 ⟨rfl, ha, rfl, rfl⟩, ⟨hwf, hcells, Nat.two_pow_pos _⟩,
      decodeFn_label _ r hd⟩
  · rw [ht]
    exact ⟨hv, (State.sequencerInv_iff_of_doneFail _ rfl).2 ⟨rfl, ha, hr, nofun, nofun, hc⟩,
      ⟨hwf, hcells, Nat.two_pow_pos _⟩, hlab⟩

/-- Storing a chunk that fits (R108). From `WAIT1` the phase stays, and the same state is then judged. -/
theorem State.inv_awaitSecond_storeChunk (s : State) (data : List Byte) (h : s.Inv) (hw : s.phase.waiting = true)
    (hfit : s.bufLen + data.length ≤ s.cfg.frameBufBytes) : (s.storeChunk data).awaitSecond.Inv := by
  obtain ⟨hv, hseq, ⟨hwf, hcells, -⟩, hlab⟩ := h
  obtain ⟨-, ha, -, hr, he, hc⟩ := (s.sequencerInv_iff_of_waiting hw).1 hseq
  refine ⟨hv, (State.sequencerInv_iff_of_waiting _ rfl).2 ⟨hfit, ha, nofun, hr, he, hc⟩, ⟨?_, ?_, ?_⟩, hlab⟩
  · exact Memory.wf_writeBytes data s.buf hwf s.bufLen
  · intro c hmem
    rcases Memory.mem_writeBytes data s.buf s.bufLen c hmem with hold | ⟨-, hnew⟩
    · exact hcells c hold
    · exact Nat.lt_of_lt_of_le hnew hfit
  · exact State.bufLen_fits (s.storeChunk data).awaitSecond hfit

theorem State.awaitSecond_of_wait1 (s : State) (hp : s.phase = .wait1) : s.awaitSecond = s := by
  unfold State.awaitSecond
  rw [← hp]

theorem inv_judgeFrame (s : State) (h : s.Inv) (hw : s.phase.waiting = true) : (judgeFrame s).Inv := by
  rcases judgeFrame_cases s with ⟨-, ht⟩ | ⟨-, ht⟩
  · rw [ht]
    exact s.inv_complete h hw
  · rw [ht]
    exact s.inv_failAttempt h hw

theorem State.inv_resetBlock (s : State) (hv : s.cfg.valid = true) : s.resetBlock.Inv := by
  refine ⟨hv, ?_, ⟨⟨List.Pairwise.nil, nofun⟩, nofun, Nat.two_pow_pos _⟩, Record.cleared_label⟩
  simp [State.sequencerInv, State.done]

/-- Every operation keeps the invariant; those that write none of the fields it speaks of keep it by definition. -/
theorem exec_inv (i : Instr) (s t : State) (h : s.Inv) (he : exec i s = .next t) : t.Inv := by
  rcases exec_cases i s t he with ⟨-, rfl⟩ | ⟨-, -, rfl⟩ | ⟨-, hw, rfl⟩ | ⟨d, -, hw, -, rfl⟩ | ⟨d, -, hp, hfit, rfl⟩ |
    ⟨d, -, hp, hfit, rfl⟩ | ⟨-, rfl⟩ | ⟨-, rfl⟩ | ⟨-, -, -, -, d, m, r, rfl⟩
  · exact h
  · obtain ⟨hv, -, hbuf, -⟩ := h
    exact s.inv_newCycle hv hbuf
  · exact s.inv_failAttempt h hw
  · exact s.inv_failAttempt h hw
  · exact s.inv_awaitSecond_storeChunk d h (by rw [hp]; rfl) hfit
  · have hstored := s.inv_awaitSecond_storeChunk d h (by rw [hp]; rfl) hfit
    rw [State.awaitSecond_of_wait1 (s.storeChunk d) hp] at hstored
    exact inv_judgeFrame _ hstored (by rw [State.storeChunk_phase, hp]; rfl)
  · obtain ⟨hv, -⟩ := h
    exact s.inv_resetBlock hv
  · exact h
  · exact h

/-- Settles O11: a step waits or runs one operation, and every operation keeps the invariant. -/
theorem everyStepKeepsTheInvariant : Obligations.EveryStepKeepsTheInvariant := by
  unfold Obligations.EveryStepKeepsTheInvariant
  intro s t h hs
  obtain ⟨-, ⟨-, rfl⟩ | ⟨x, rest, i, -, -, he⟩⟩ := step_cases s t hs
  · exact h
  · exact exec_inv i (s.present rest) t h he

/-- Settles O10: the reset state is the result of a RESET with the default parameters. -/
theorem resetStateMeetsTheInvariant : Obligations.ResetStateMeetsTheInvariant := by
  unfold Obligations.ResetStateMeetsTheInvariant
  exact State.reset.inv_resetBlock (by decide)

/-! ### One poll cycle -/

@[simp] theorem judgeFrame_cfg (s : State) : (judgeFrame s).cfg = s.cfg := by
  rcases judgeFrame_cases s with ⟨-, ht⟩ | ⟨-, ht⟩ <;> simp [ht]

/-- No operation writes the parameters (R242). -/
theorem exec_cfg (i : Instr) (s t : State) (he : exec i s = .next t) : t.cfg = s.cfg := by
  rcases exec_cases i s t he with ⟨-, rfl⟩ | ⟨-, -, rfl⟩ | ⟨-, -, rfl⟩ | ⟨d, -, -, -, rfl⟩ | ⟨d, -, -, -, rfl⟩ |
    ⟨d, -, -, -, rfl⟩ | ⟨-, rfl⟩ | ⟨-, rfl⟩ | ⟨-, -, -, -, d, m, r, rfl⟩
  all_goals simp

/-- What one operation can do to the phase, the attempt counter and the requests while its cycle lasts: nothing, and a
delivery does nothing only where no attempt waits; await the second chunk; end the cycle; or begin the next attempt with
its `SendReq`. -/
def CycleStep (i : Instr) (s t : State) : Prop :=
  (t.phase = s.phase ∧ t.attempt = s.attempt ∧ t.out = s.out ∧ (i.delivery = true → s.phase.waiting = false))
  ∨ (s.phase = .wait0 ∧ t.phase = .wait1 ∧ t.attempt = s.attempt ∧ t.out = s.out)
  ∨ (t.done = true ∧ t.attempt = s.attempt ∧ t.out = s.out)
  ∨ (s.phase.waiting = true ∧ s.attempt.toNat < s.cfg.maxAttempts ∧ t.phase = .wait0
      ∧ t.attempt = s.attempt + 1#4 ∧ t.out = s.out ++ [.sendReq req])

theorem cycleStep_failAttempt (i : Instr) (s : State) (hw : s.phase.waiting = true) :
    CycleStep i s s.failAttempt := by
  rcases s.failAttempt_cases with ⟨hlt, ht⟩ | ⟨-, ht⟩
  · rw [ht]
    exact .inr (.inr (.inr ⟨hw, hlt, rfl, rfl, rfl⟩))
  · rw [ht]
    exact .inr (.inr (.inl ⟨rfl, rfl, rfl⟩))

theorem State.complete_done (s : State) : s.complete.done = true := by
  rcases s.complete_cases with ⟨r, -, ht⟩ | ⟨-, ht⟩ <;> rw [ht] <;> rfl

theorem cycleStep_judgeFrame (i : Instr) (s : State) (hw : s.phase.waiting = true) : CycleStep i s (judgeFrame s) := by
  rcases judgeFrame_cases s with ⟨-, ht⟩ | ⟨-, ht⟩
  · rw [ht]
    exact .inr (.inr (.inl ⟨s.complete_done, s.complete_attempt, s.complete_out⟩))
  · rw [ht]
    exact cycleStep_failAttempt i s hw

theorem ignoredIn_delivery (i : Instr) (s : State) (h : ignoredIn i s) (hd : i.delivery = true) :
    s.phase.waiting = false := by
  rcases h with ⟨rfl, -⟩ | ⟨-, hw⟩ | ⟨low, rfl⟩
  · cases hd
  · exact hw
  · cases hd

/-- The hypotheses are those of `staysInCycle`. -/
theorem exec_cycleStep (i : Instr) (s t : State) (hreset : i ≠ .reset) (hsend : i ≠ .sendreq)
    (hstart : i = .start → s.phase.waiting = true) (he : exec i s = .next t) : CycleStep i s t := by
  rcases exec_cases i s t he with ⟨hign, rfl⟩ | ⟨hi, hw, rfl⟩ | ⟨-, hw, rfl⟩ | ⟨d, -, hw, -, rfl⟩ |
    ⟨d, -, hp, -, rfl⟩ | ⟨d, -, hp, -, rfl⟩ | ⟨hi, rfl⟩ | ⟨hi, rfl⟩ | ⟨-, -, -, hd, d, m, r, rfl⟩
  · exact .inl ⟨rfl, rfl, rfl, ignoredIn_delivery i s hign⟩
  · rw [hstart hi] at hw
    cases hw
  · exact cycleStep_failAttempt i s hw
  · exact cycleStep_failAttempt i s hw
  · exact .inr (.inl ⟨hp, rfl, rfl, rfl⟩)
  · exact cycleStep_judgeFrame i (s.storeChunk d) (by rw [State.storeChunk_phase, hp]; rfl)
  · exact absurd hi hreset
  · exact absurd hi hsend
  · exact .inl ⟨rfl, rfl, rfl, fun h => by rw [hd] at h; cases h⟩

theorem State.not_idle_iff (s : State) : s.phase ≠ .idle ↔ s.phase.waiting = true ∨ s.done = true := by
  cases hp : s.phase <;> simp [State.done, Phase.waiting, hp]

/-- A state of a cycle that was started in `s0`: each attempt so far has emitted one request (R106). -/
def InCycle (s0 s : State) : Prop :=
  s.Inv ∧ s.cfg = s0.cfg ∧ s.phase ≠ .idle ∧ s.out.length = s0.out.length + s.attempt.toNat

theorem inCycle_newCycle (s : State) (h : s.Inv) : InCycle s s.newCycle := by
  obtain ⟨hv, -, hbuf, -⟩ := h
  exact ⟨s.inv_newCycle hv hbuf, rfl, nofun, by simp⟩

theorem CycleStep.inCycle {i : Instr} {s0 s t : State} (hstep : CycleStep i s t) (he : exec i s = .next t)
    (h : InCycle s0 s) : InCycle s0 t := by
  obtain ⟨hinv, hcfg, hidle, hout⟩ := h
  refine ⟨exec_inv i s t hinv he, (exec_cfg i s t he).trans hcfg, ?_⟩
  rcases hstep with ⟨hp, ha, ho, -⟩ | ⟨-, hp, ha, ho⟩ | ⟨hp, ha, ho⟩ | ⟨-, hlt, hp, ha, ho⟩
  · exact ⟨hp ▸ hidle, by rw [ho, ha, hout]⟩
  · exact ⟨by simp [hp], by rw [ho, ha, hout]⟩
  · exact ⟨t.not_idle_iff.2 (.inr hp), by rw [ho, ha, hout]⟩
  · obtain ⟨hv, -⟩ := hinv
    refine ⟨by simp [hp], ?_⟩
    rw [ho, ha, attempt_succ_toNat s hv hlt, List.length_append, hout]
    exact Nat.add_assoc _ _ _

/-- How many deliveries the cycle can still take: two for each attempt to come, and those the current attempt waits
for (R113). -/
def State.deliveriesLeft (s : State) : Nat :=
  match s.phase with
  | .wait0 => 2 * (s.cfg.maxAttempts - s.attempt.toNat) + 2
  | .wait1 => 2 * (s.cfg.maxAttempts - s.attempt.toNat) + 1
  | .idle | .doneOk | .doneFail => 0

theorem State.deliveriesLeft_newCycle (s : State) (hv : s.cfg.valid = true) :
    s.newCycle.deliveriesLeft = 2 * s.cfg.maxAttempts := by
  have hmax : 1 ≤ s.cfg.maxAttempts := by simp_all [Config.valid]
  simp [State.deliveriesLeft]
  omega

theorem State.deliveriesLeft_of_waiting (s : State) (hw : s.phase.waiting = true) :
    2 * (s.cfg.maxAttempts - s.attempt.toNat) < s.deliveriesLeft := by
  rcases (Phase.waiting_iff _).1 hw with hp | hp <;> simp [State.deliveriesLeft, hp]

theorem State.deliveriesLeft_of_not_waiting (s : State) (hw : s.phase.waiting = false) : s.deliveriesLeft = 0 := by
  rcases (Phase.not_waiting_iff _).1 hw with hp | hp | hp <;> simp [State.deliveriesLeft, hp]

theorem State.deliveriesLeft_of_done (s : State) (hd : s.done = true) : s.deliveriesLeft = 0 := by
  apply s.deliveriesLeft_of_not_waiting
  cases hp : s.phase <;> simp_all [State.done, Phase.waiting]

/-- Each delivery uses up at least one of those that are left. -/
theorem CycleStep.deliveriesLeft_le {i : Instr} {s t : State} (hstep : CycleStep i s t) (hv : s.cfg.valid = true)
    (hcfg : t.cfg = s.cfg) : t.deliveriesLeft ≤ s.deliveriesLeft - i.delivery.toNat := by
  have hi : i.delivery.toNat ≤ 1 := Bool.toNat_le _
  rcases hstep with ⟨hp, ha, -, hd⟩ | ⟨hs, hp, ha, -⟩ | ⟨hp, -, -⟩ | ⟨hw, hlt, hp, ha, -⟩
  · have heq : t.deliveriesLeft = s.deliveriesLeft := by simp only [State.deliveriesLeft, hp, ha, hcfg]
    cases hdel : i.delivery with
    | false => exact Nat.le_of_eq heq
    | true => rw [heq, s.deliveriesLeft_of_not_waiting (hd hdel)]; exact Nat.zero_le _
  · simp only [State.deliveriesLeft, hs, hp, ha, hcfg]
    omega
  · rw [t.deliveriesLeft_of_done hp]
    exact Nat.zero_le _
  · have hleft := s.deliveriesLeft_of_waiting hw
    have ht : t.deliveriesLeft = 2 * (s.cfg.maxAttempts - (s.attempt.toNat + 1)) + 2 := by
      simp only [State.deliveriesLeft, hp, ha, hcfg, attempt_succ_toNat s hv hlt]
    omega

theorem execAll_cons_next (i : Instr) (is : List Instr) (s t : State) (he : execAll (i :: is) s = .next t) :
    ∃ u, exec i s = .next u ∧ execAll is u = .next t := by
  unfold execAll at he
  split at he
  · exact ⟨_, by assumption, he⟩
  · cases he
  · cases he

/-- A run inside a cycle: every state of it is one of the cycle, and each delivery has been used up. -/
theorem execAll_inCycle (ops : List Instr) (s0 s t : State) (h : InCycle s0 s) (hc : staysInCycle ops s)
    (he : execAll ops s = .next t) :
    InCycle s0 t ∧ t.deliveriesLeft ≤ s.deliveriesLeft - ops.countP Instr.delivery := by
  induction ops generalizing s with
  | nil =>
    cases he
    exact ⟨h, Nat.le_refl _⟩
  | cons i is ih =>
    obtain ⟨u, hu, hrest⟩ := execAll_cons_next i is s t he
    obtain ⟨hreset, hsend, hstart, htail⟩ := hc
    have hstep := exec_cycleStep i s u hreset hsend hstart hu
    obtain ⟨hin, hle⟩ := ih u (hstep.inCycle hu h) (htail u hu) hrest
    obtain ⟨⟨hv, -⟩, -⟩ := h
    have hused := hstep.deliveriesLeft_le hv (exec_cfg i s u hu)
    have hcount : (i :: is).countP Instr.delivery = is.countP Instr.delivery + i.delivery.toNat := by
      rw [List.countP_cons]
      cases i.delivery <;> rfl
    exact ⟨hin, by omega⟩

/-- A whole cycle, from the START that the block accepts. -/
theorem execAll_start_inCycle (ops : List Instr) (s t : State) (h : s.Inv) (hw : s.phase.waiting = false)
    (hc : staysInCycle ops s.newCycle) (he : execAll (.start :: ops) s = .next t) :
    InCycle s t ∧ t.deliveriesLeft ≤ 2 * s.cfg.maxAttempts - ops.countP Instr.delivery := by
  have hstart : exec .start s = .next s.newCycle := by simp [exec, execStart, hw]
  obtain ⟨u, hu, hrest⟩ := execAll_cons_next .start ops s t he
  obtain rfl : s.newCycle = u := by simpa [hstart] using hu
  have hrun := execAll_inCycle ops s s.newCycle t (inCycle_newCycle s h) hc hrest
  obtain ⟨hv, -⟩ := h
  rwa [s.deliveriesLeft_newCycle hv] at hrun

/-- Settles O33: each attempt of the cycle has emitted one request, and R35 bounds the attempts. -/
theorem requestsOfACycleStayInTheBudget : Obligations.RequestsOfACycleStayInTheBudget := by
  unfold Obligations.RequestsOfACycleStayInTheBudget
  intro ops s t h hw hc he
  obtain ⟨⟨⟨-, hseq, -, -⟩, hcfg, hidle, hout⟩, -⟩ := execAll_start_inCycle ops s t h hw hc he
  obtain ⟨-, -, hbound, -, -, -, herr, hlast, -⟩ := hseq
  obtain ⟨-, hle⟩ := hbound hidle
  rw [hcfg] at hle hlast
  exact ⟨hout, hle, fun hno => hlast ⟨herr.1 (by simp [hno]), hno⟩⟩

/-- Settles O34: with no delivery left the state waits for none, and a cycle that does not wait is done. -/
theorem cycleEndsWithinTwiceTheBudget : Obligations.CycleEndsWithinTwiceTheBudget := by
  unfold Obligations.CycleEndsWithinTwiceTheBudget
  intro ops s t h hw hc he hcount
  obtain ⟨⟨-, -, hidle, -⟩, hleft⟩ := execAll_start_inCycle ops s t h hw hc he
  rcases t.not_idle_iff.1 hidle with hwait | hdone
  · have hpos := t.deliveriesLeft_of_waiting hwait
    omega
  · exact hdone

/-! ### Steps -/

/-- An extractor completes or stops with a fault. -/
theorem extractTo_ne_refused (f : List Byte) (o n : Nat) (set : Record → Record) (s : State) (r : Refusal) :
    extractTo f o n set s ≠ .refused r := by
  unfold extractTo
  split <;> nofun

/-- Every operation has its meaning. -/
theorem exec_ne_refused (i : Instr) (s : State) (r : Refusal) : exec i s ≠ .refused r := by
  cases i with
  | extVmain f | extImain f | extRemcap f | extNomcap f | extNcyc f | extProt f | extSoc f =>
    exact extractTo_ne_refused _ _ _ _ _ _
  | nop | start | chunk d | timeout | reserved low | reset | read idx | sendreq | startMarker f | term f
  | protOk w | protBit0 w | protBit1 w | protBit2 w | protBit3 w | protBit4 w | protBit5 w | protBit6 w | protBit7 w
  | protBit8 w | protBit9 w | protBit10 w | protBit11 w | protBit12 w => nofun

/-- Every value on the host's ports is an operation (R88). -/
theorem hostMove_of_rejected (x : Txn) (e : DecodeError) (h : decode x = .rejected e) : x.hostMove = false := by
  cases x with
  | ports rst ev data => cases h
  | regport idx => cases h
  | sendreq word | frame test f | field desc f | prot w => rfl

theorem step_of_decode_ok (s : State) (x : Txn) (rest : List Txn) (i : Instr) (hv : s.cfg.valid = true)
    (hp : s.pending = x :: rest) (hd : decode x = .ok i) : step s = exec i (s.present rest) := by
  simp [step, hv, hp, hd]

/-- When a step is refused. -/
theorem step_refused_cases (s : State) (r : Refusal) (h : step s = .refused r) :
    (s.cfg.valid = false ∧ r = .unsupportedConfig)
    ∨ ∃ x rest e, s.pending = x :: rest ∧ decode x = .rejected e ∧ r = .undecodable e := by
  unfold step at h
  split at h
  · cases h
    exact .inl ⟨by simp_all, rfl⟩
  · split at h
    · cases h
    · split at h
      · exact absurd h (exec_ne_refused _ _ _)
      · cases h
        exact .inr ⟨_, _, _, by assumption, by assumption, rfl⟩

/-- Settles O8: a step is refused before it runs an operation, and the host's ports always decode. -/
theorem stepRefusesOnlyBadParametersOrForeignWords : Obligations.StepRefusesOnlyBadParametersOrForeignWords := by
  unfold Obligations.StepRefusesOnlyBadParametersOrForeignWords
  intro s r h
  rcases step_refused_cases s r h with ⟨hv, hr⟩ | ⟨x, rest, e, hp, hd, hr⟩
  · refine .inl ⟨hr, fun ⟨hpos, hmax, hbuf⟩ => ?_⟩
    simp [Config.valid, hpos, hmax, hbuf] at hv
  · exact .inr ⟨x, rest, e, hp, hostMove_of_rejected x e hd, hd, hr⟩

/-- Settles O6: the equation of a step on a transaction that decodes. -/
theorem stepRunsTheDecodedOperation : Obligations.StepRunsTheDecodedOperation := step_of_decode_ok

/-! ### Signed fields -/

/-- `sext` is the library's signed value of a bit vector. -/
theorem sext_eq_toInt {n : Nat} (v : BitVec n) : sext v = v.toInt := by
  rw [BitVec.toInt_eq_msb_cond]
  rfl

/-- Settles O44: the two's complement value of a 16-bit pattern and its range (R151). -/
theorem signedValueIsTwosComplement : Obligations.SignedValueIsTwosComplement := by
  unfold Obligations.SignedValueIsTwosComplement
  intro p
  rw [sext_eq_toInt]
  refine ⟨?_, BitVec.le_toInt p, BitVec.toInt_le⟩
  rw [BitVec.toInt_eq_toNat_cond]
  split <;> split <;> omega

end Sys2Proof.Machine
end

section
/-! The obligations of 10_state.md: R35 along every run that begins with a reset, who writes the record (R24), what
`IGN` does (R27), the status word (R31) and when the record may be used (R25). -/

namespace Sys2Proof.Machine

/-! ### Runs -/

theorem run_succ_next (M : Host.Core) (n : Nat) (s t : M.State) (h : M.run (n + 1) s = .next t) :
    ∃ u, M.step s = .next u ∧ M.run n u = .next t := by
  unfold Host.Core.run at h
  split at h
  · exact ⟨_, by assumption, h⟩
  · cases h
  · cases h

/-- What every step keeps holds at the end of every run. -/
theorem run_keeps (M : Host.Core) (P : M.State → Prop) (hstep : ∀ s t, P s → M.step s = .next t → P t)
    (n : Nat) (s t : M.State) (hs : P s) (h : M.run n s = .next t) : P t := by
  induction n generalizing s with
  | zero =>
    cases h
    exact hs
  | succ n ih =>
    obtain ⟨u, hu, hrest⟩ := run_succ_next M n s t h
    exact ih u (hstep s u hs hu) hrest

/-- A host that resets first presents a reset next. -/
theorem resetsFirst_cons (x : Txn) (rest : List Txn) (h : resetsFirst (x :: rest) = true) :
    decode x = .ok .reset := by
  simp only [resetsFirst, Bool.and_eq_true, decide_eq_true_eq] at h
  obtain ⟨hd, -⟩ := h
  exact hd

/-- The first step of such a host establishes the invariant, whatever the state was (R240, R241). -/
theorem step_inv_of_resetsFirst (s t : State) (hp : s.pending ≠ []) (hr : resetsFirst s.pending = true)
    (h : step s = .next t) : t.Inv := by
  obtain ⟨hv, ⟨hnil, -⟩ | ⟨x, rest, i, hcons, hd, he⟩⟩ := step_cases s t h
  · exact absurd hnil hp
  · rw [hcons] at hr
    obtain rfl : i = .reset := by simpa [hd] using resetsFirst_cons x rest hr
    cases he
    exact (s.present rest).inv_resetBlock hv

/-- Settles O12: the reset establishes the invariant that every step keeps. -/
theorem runsThatResetFirstMeetR35 : Obligations.RunsThatResetFirstMeetR35 := by
  unfold Obligations.RunsThatResetFirstMeetR35
  intro s t n _ hp hr h
  obtain ⟨u, hu, hrest⟩ := run_succ_next Sys2Proof.core n s t h
  have hinv : t.Inv := run_keeps Sys2Proof.core State.Inv everyStepKeepsTheInvariant n u t
    (step_inv_of_resetsFirst s u hp hr hu) hrest
  obtain ⟨-, hseq, -, -⟩ := hinv
  exact hseq

/-! ### The record of a frame -/

/-- Searching the numbers below `m` downwards gives the highest that `p` accepts. -/
theorem find?_reverse_range_some (p : Nat → Bool) (m n : Nat) (h : (List.range m).reverse.find? p = some n) :
    n < m ∧ p n = true ∧ ∀ k, n < k → k < m → p k = false := by
  induction m with
  | zero => cases h
  | succ m ih =>
    rw [List.range_succ, List.reverse_append, List.reverse_singleton, List.singleton_append, List.find?_cons] at h
    cases hm : p m with
    | true =>
      simp only [hm, Option.some.injEq] at h
      subst h
      exact ⟨by omega, hm, fun k hlo hhi => by omega⟩
    | false =>
      simp only [hm] at h
      obtain ⟨hlt, hp, hmax⟩ := ih h
      refine ⟨by omega, hp, fun k hlo hhi => ?_⟩
      rcases Nat.lt_succ_iff_lt_or_eq.1 hhi with hk | rfl
      · exact hmax k hlo hk
      · exact hm

/-- `Prio` gives the label code of every word (R170). -/
theorem prio_isLabelCode (w : Half) : IsLabelCode w (prio w) := by
  unfold prio
  split
  · next n hn =>
    obtain ⟨hlt, hset, hmax⟩ := find?_reverse_range_some _ _ _ hn
    refine .inr ⟨n, by omega, ?_, hset, fun k hlo hhi => hmax k hlo (by omega)⟩
    rw [BitVec.toNat_ofNat]
    omega
  · next hnone =>
    refine .inl ⟨rfl, fun n hn => ?_⟩
    simpa using List.find?_eq_none.1 hnone n (by simp; omega)

/-- A 16-bit field is the big-endian word at its frame index (R52, R134, R150). -/
theorem fieldU16_toNat (f : List Byte) (o : Nat) : (fieldU16 f o).toNat = beWordAt f (4 + o) := by
  have hlow : (payloadByte f (o + 1)).toNat < 2 ^ 8 := BitVec.isLt _
  unfold fieldU16
  rw [BitVec.toNat_append, ← Nat.shiftLeft_add_eq_or_of_lt hlow, Nat.shiftLeft_eq, Nat.mul_comm]
  rfl

theorem extract_isRecordOf (f : List Byte) : IsRecordOf f (extract f) :=
  ⟨fieldU16_toNat f 0, fieldU16_toNat f 2, fieldU16_toNat f 4, fieldU16_toNat f 6, fieldU16_toNat f 8,
    fieldU16_toNat f 16, rfl, prio_isLabelCode _⟩

theorem decodeFn_isRecordOf (f : List Byte) (r : Record) (h : decodeFn f = .ok r) : IsRecordOf f r := by
  rw [decodeFn_ok f r h]
  exact extract_isRecordOf f

/-- The end of the second chunk's step writes the record only where it accepts the frame. -/
theorem judgeFrame_regs_cases (s : State) :
    (judgeFrame s).regs = s.regs
    ∨ ((judgeFrame s).phase = .doneOk ∧ IsRecordOf s.frame (judgeFrame s).regs) := by
  rcases judgeFrame_cases s with ⟨-, ht⟩ | ⟨-, ht⟩
  · rcases s.complete_cases with ⟨r, hd, hc⟩ | ⟨-, hc⟩
    · rw [ht, hc]
      exact .inr ⟨rfl, decodeFn_isRecordOf _ r hd⟩
    · rw [ht, hc]
      exact .inl rfl
  · rw [ht]
    exact .inl s.failAttempt_regs

/-- Settles O26: of all that an operation can do, three things write the record. -/
theorem recordIsWrittenByCompleteStartAndResetOnly : Obligations.RecordIsWrittenByCompleteStartAndResetOnly := by
  unfold Obligations.RecordIsWrittenByCompleteStartAndResetOnly
  intro i s t hwf he hne
  rcases exec_cases i s t he with ⟨-, rfl⟩ | ⟨hi, hw, rfl⟩ | ⟨-, -, rfl⟩ | ⟨d, -, -, -, rfl⟩ | ⟨d, -, -, -, rfl⟩ |
    ⟨d, hi, hp, -, rfl⟩ | ⟨hi, rfl⟩ | ⟨-, rfl⟩ | ⟨-, -, -, -, d, m, r, rfl⟩
  · exact absurd rfl hne
  · exact .inr (.inl ⟨hi, hw, rfl⟩)
  · exact absurd s.failAttempt_regs hne
  · exact absurd s.failAttempt_regs hne
  · exact absurd rfl hne
  · rcases judgeFrame_regs_cases (s.storeChunk d) with hsame | ⟨hdone, hrec⟩
    · exact absurd hsame hne
    · rw [s.frame_storeChunk hwf d] at hrec
      exact .inl ⟨d, hi, hp, hdone, hrec⟩
  · exact .inr (.inr ⟨hi, rfl⟩)
  · exact absurd rfl hne
  · exact absurd rfl hne

/-! ### `IGN` -/

@[simp] theorem judgeFrame_ign (s : State) : (judgeFrame s).ign = s.ign := by
  rcases judgeFrame_cases s with ⟨-, ht⟩ | ⟨-, ht⟩ <;> simp [ht]

/-- An ignored event only sets `IGN` (R27, R215). -/
theorem exec_of_ignoredIn (i : Instr) (s : State) (h : ignoredIn i s) : exec i s = .next s.ignore := by
  rcases h with ⟨rfl, hw⟩ | ⟨⟨d, rfl⟩ | rfl, hw⟩ | ⟨low, rfl⟩
  · simp [exec, execStart, hw]
  · simp [exec, execChunk, hw]
  · simp [exec, execTimeout, hw]
  · rfl

/-- What an operation does to `IGN`: an ignored event sets it, an accepted START and reset clear it, all else leaves
it. -/
theorem exec_ign_cases (i : Instr) (s t : State) (he : exec i s = .next t) :
    (ignoredIn i s ∧ t.ign = true)
    ∨ ((i = .reset ∨ (i = .start ∧ s.phase.waiting = false)) ∧ t.ign = false)
    ∨ t.ign = s.ign := by
  rcases exec_cases i s t he with ⟨hign, rfl⟩ | ⟨hi, hw, rfl⟩ | ⟨-, -, rfl⟩ | ⟨d, -, -, -, rfl⟩ | ⟨d, -, -, -, rfl⟩ |
    ⟨d, -, -, -, rfl⟩ | ⟨hi, rfl⟩ | ⟨-, rfl⟩ | ⟨-, -, -, -, d, m, r, rfl⟩
  · exact .inl ⟨hign, rfl⟩
  · exact .inr (.inl ⟨.inr ⟨hi, hw⟩, rfl⟩)
  · exact .inr (.inr s.failAttempt_ign)
  · exact .inr (.inr s.failAttempt_ign)
  · exact .inr (.inr rfl)
  · exact .inr (.inr (judgeFrame_ign (s.storeChunk d)))
  · exact .inr (.inl ⟨.inl hi, rfl⟩)
  · exact .inr (.inr rfl)
  · exact .inr (.inr rfl)

/-- A meaning to which the value of `IGN` makes no difference but for `IGN` itself. -/
def MeaningIgnInert (f : State → Host.Outcome State Fault Refusal) : Prop :=
  ∀ s t, f s = .next t → ∀ b, ∃ b', f { s with ign := b } = .next { t with ign := b' }

/-- The same for the state function of a meaning that always completes. -/
def IgnInert (g : State → State) : Prop := ∀ s b, ∃ b', g { s with ign := b } = { g s with ign := b' }

theorem IgnInert.next {g : State → State} (hg : IgnInert g) : MeaningIgnInert (fun s => .next (g s)) := by
  intro s t he b
  cases he
  obtain ⟨b', hb⟩ := hg s b
  exact ⟨b', congrArg Host.Outcome.next hb⟩

theorem IgnInert.comp {g h : State → State} (hg : IgnInert g) (hh : IgnInert h) : IgnInert (fun s => g (h s)) := by
  intro s b
  obtain ⟨c, hc⟩ := hh s b
  obtain ⟨c', hc'⟩ := hg (h s) c
  exact ⟨c', (congrArg g hc).trans hc'⟩

/-- A choice by a condition that does not look at `IGN`. -/
theorem IgnInert.ite {c : State → Prop} [DecidablePred c] {g h : State → State}
    (hc : ∀ s b, c { s with ign := b } ↔ c s) (hg : IgnInert g) (hh : IgnInert h) :
    IgnInert (fun s => if c s then g s else h s) := by
  intro s b
  by_cases hs : c s
  · simpa only [hc, hs, if_true] using hg s b
  · simpa only [hc, hs, if_false] using hh s b

theorem ignInert_ignore : IgnInert State.ignore := fun _ _ => ⟨true, rfl⟩

theorem ignInert_newCycle : IgnInert State.newCycle := fun _ _ => ⟨false, rfl⟩

theorem ignInert_resetBlock : IgnInert State.resetBlock := fun _ _ => ⟨false, rfl⟩

theorem ignInert_storeChunk (data : List Byte) : IgnInert (fun s => s.storeChunk data) := fun _ b => ⟨b, rfl⟩

theorem ignInert_awaitSecond : IgnInert State.awaitSecond := fun _ b => ⟨b, rfl⟩

theorem ignInert_failAttempt : IgnInert State.failAttempt :=
  IgnInert.ite (fun _ _ => Iff.rfl) (g := fun s => State.startAttempt { s with attempt := s.attempt + 1#4 })
    (h := fun s => State.raise { s with bufLen := 0 } .noResponse) (fun _ b => ⟨b, rfl⟩) (fun _ b => ⟨b, rfl⟩)

theorem ignInert_complete : IgnInert State.complete := by
  intro s b
  refine ⟨b, ?_⟩
  have hframe : State.frame { s with ign := b } = s.frame := rfl
  unfold State.complete
  rw [hframe]
  cases decodeFn s.frame <;> rfl

theorem ignInert_judgeFrame : IgnInert judgeFrame :=
  IgnInert.ite (fun _ _ => Iff.rfl) ignInert_complete ignInert_failAttempt

theorem execStart_ignInert : MeaningIgnInert execStart :=
  IgnInert.next (.ite (c := fun s => s.phase.waiting = true) (fun _ _ => Iff.rfl) ignInert_ignore ignInert_newCycle)

theorem execTimeout_ignInert : MeaningIgnInert execTimeout :=
  IgnInert.next
    (.ite (c := fun s => s.phase.waiting = true) (fun _ _ => Iff.rfl) ignInert_failAttempt ignInert_ignore)

theorem execChunk_ignInert (data : List Byte) : MeaningIgnInert (execChunk data) :=
  IgnInert.next
    (.ite (c := fun s => (!s.phase.waiting) = true) (fun _ _ => Iff.rfl) ignInert_ignore
      (.ite (c := fun s => s.cfg.frameBufBytes < s.bufLen + data.length) (fun _ _ => Iff.rfl) ignInert_failAttempt
        (.ite (c := fun s => s.phase = .wait0) (fun _ _ => Iff.rfl)
          (ignInert_awaitSecond.comp (ignInert_storeChunk data))
          (ignInert_judgeFrame.comp (ignInert_storeChunk data)))))

/-- `STATUS` is the only register that shows `IGN` (R31, R56). -/
theorem State.regMap_ign (s : State) (b : Bool) (idx : BitVec 4) (h : idx ≠ 0x0#4) :
    State.regMap { s with ign := b } idx = s.regMap idx := by
  have hpos : idx.toNat ≠ 0 := fun h0 => h (BitVec.eq_of_toNat_eq h0)
  unfold State.regMap
  split
  · contradiction
  all_goals rfl

theorem execRead_ignInert (idx : BitVec 4) (h : idx ≠ 0x0#4) : MeaningIgnInert (execRead idx) :=
  IgnInert.next fun s b => ⟨b, by rw [s.regMap_ign b idx h]⟩

/-- Whether an extractor completes depends on its operand alone. -/
theorem extractTo_ignInert (f : List Byte) (o n : Nat) (set : Record → Record) :
    MeaningIgnInert (extractTo f o n set) := by
  intro s t he b
  obtain ⟨hfits, rfl⟩ := extractTo_next f o n set s t he
  exact ⟨b, if_pos hfits⟩

theorem applyRow_ignInert (row : ProtRow) (w : Half) : MeaningIgnInert (applyRow row w) :=
  IgnInert.next (.ite (c := fun _ => row.applies w = true) (fun _ _ => Iff.rfl)
    (g := fun s => s.latchField (fun r => { r with pcode := row.code })) (fun _ b => ⟨b, rfl⟩) (fun _ b => ⟨b, rfl⟩))

/-- No operation but a READ of `STATUS` looks at `IGN` (R27). -/
theorem exec_ignInert (i : Instr) (hi : i ≠ .read 0x0#4) : MeaningIgnInert (exec i) := by
  cases i with
  | start => exact execStart_ignInert
  | chunk d => exact execChunk_ignInert d
  | timeout => exact execTimeout_ignInert
  | reserved low => exact ignInert_ignore.next
  | reset => exact ignInert_resetBlock.next
  | read idx => exact execRead_ignInert idx (fun h => hi (congrArg Instr.read h))
  | nop | sendreq | startMarker f | term f =>
    intro s t he b
    cases he
    exact ⟨b, rfl⟩
  | extVmain f | extImain f | extRemcap f | extNomcap f | extNcyc f | extProt f | extSoc f =>
    exact extractTo_ignInert _ _ _ _
  | protOk w | protBit0 w | protBit1 w | protBit2 w | protBit3 w | protBit4 w | protBit5 w | protBit6 w | protBit7 w
  | protBit8 w | protBit9 w | protBit10 w | protBit11 w | protBit12 w => exact applyRow_ignInert _ w

/-- Settles O28: an ignored event sets `IGN`, an accepted START and reset clear it, and no operation looks at it. -/
theorem ignIsStickyAndInert : Obligations.IgnIsStickyAndInert := by
  unfold Obligations.IgnIsStickyAndInert
  intro i s t he
  refine ⟨fun hs ht => ?_, fun hign => ?_, fun hs ht => ?_, fun hi => exec_ignInert i hi s t he⟩
  · rcases exec_ign_cases i s t he with ⟨-, hset⟩ | ⟨hi, -⟩ | hsame
    · simp [ht] at hset
    · exact hi
    · simp [hs, ht] at hsame
  · rw [exec_of_ignoredIn i s hign] at he
    cases he
    rfl
  · rcases exec_ign_cases i s t he with ⟨hign, -⟩ | ⟨-, hclear⟩ | hsame
    · exact hign
    · simp [ht] at hclear
    · simp [hs, ht] at hsame

/-! ### The status word -/

/-! Each field is found by skipping the fields below it, one `_append_high` for each. -/

theorem getLsbD_append_high {m n : Nat} (x : BitVec m) (y : BitVec n) (i : Nat) :
    (x ++ y).getLsbD (i + n) = x.getLsbD i := by
  rw [BitVec.getLsbD_append, if_neg (by omega), Nat.add_sub_cancel]

theorem getLsbD_append_ofBool {m : Nat} (x : BitVec m) (b : Bool) : (x ++ BitVec.ofBool b).getLsbD 0 = b := by
  rw [BitVec.getLsbD_append, if_pos Nat.one_pos]
  cases b <;> rfl

theorem extractLsb'_append_high {m n : Nat} (x : BitVec m) (y : BitVec n) (i len : Nat) :
    (x ++ y).extractLsb' (i + n) len = x.extractLsb' i len := by
  rw [BitVec.extractLsb'_append_eq_of_le (Nat.le_add_left n i), Nat.add_sub_cancel]

theorem State.status_phase (s : State) : s.status.extractLsb' 0 3 = s.phase.code := BitVec.extractLsb'_append_eq_right

theorem State.status_done (s : State) : s.status.getLsbD 3 = s.done :=
  (getLsbD_append_high _ _ _).trans (getLsbD_append_ofBool _ _)

theorem State.status_attempt (s : State) : s.status.extractLsb' 4 4 = s.attempt :=
  (extractLsb'_append_high _ _ _ _).trans <| (extractLsb'_append_high _ _ _ _).trans <|
    BitVec.extractLsb'_append_eq_right

theorem State.status_err (s : State) : s.status.extractLsb' 8 2 = s.err.code :=
  (extractLsb'_append_high _ _ _ _).trans <| (extractLsb'_append_high _ _ _ _).trans <|
    (extractLsb'_append_high _ _ _ _).trans <| BitVec.extractLsb'_append_eq_right

theorem State.status_ign (s : State) : s.status.getLsbD 10 = s.ign :=
  (getLsbD_append_high _ _ _).trans <| (getLsbD_append_high _ _ _).trans <| (getLsbD_append_high _ _ _).trans <|
    (getLsbD_append_high _ _ _).trans <| getLsbD_append_ofBool _ _

theorem State.status_recValid (s : State) : s.status.getLsbD 11 = s.recValid :=
  (getLsbD_append_high _ _ _).trans <| (getLsbD_append_high _ _ _).trans <| (getLsbD_append_high _ _ _).trans <|
    (getLsbD_append_high _ _ _).trans <| (getLsbD_append_high _ _ _).trans <| getLsbD_append_ofBool _ _

theorem State.status_zero (s : State) : s.status.extractLsb' 12 4 = 0#4 :=
  (extractLsb'_append_high _ _ _ _).trans <| (extractLsb'_append_high _ _ _ _).trans <|
    (extractLsb'_append_high _ _ _ _).trans <| (extractLsb'_append_high _ _ _ _).trans <|
    (extractLsb'_append_high _ _ _ _).trans <| (extractLsb'_append_high _ _ _ _).trans <| BitVec.extractLsb'_eq_self

theorem State.done_iff (s : State) : s.done = true ↔ s.phase = .doneOk ∨ s.phase = .doneFail := by
  simp [State.done]

/-- Settles O58: the fields of the status word, with the codes of R80 and R81 written out. -/
theorem statusWordLayout : Obligations.StatusWordLayout := by
  unfold Obligations.StatusWordLayout
  intro s
  refine ⟨?_, ?_, s.status_attempt, ?_, s.status_ign, s.status_recValid, s.status_zero⟩
  · rw [s.status_phase]
    cases s.phase <;> rfl
  · rw [s.status_done, ← Bool.decide_coe s.done]
    exact decide_eq_decide.2 s.done_iff
  · rw [s.status_err]
    cases s.err <;> rfl

theorem State.recordUsable_iff (s : State) : s.recordUsable = true ↔ s.done = true ∧ s.recValid = true := by
  rw [State.recordUsable, statusUsable, s.status_done, s.status_recValid, Bool.and_eq_true]

/-- Settles O59: `REC_VALID` is 1 exactly in `DONE_OK` (R25), where `DONE` is 1. -/
theorem recordIsUsableExactlyInDoneOk : Obligations.RecordIsUsableExactlyInDoneOk := by
  unfold Obligations.RecordIsUsableExactlyInDoneOk
  intro s h
  obtain ⟨-, ⟨-, -, -, -, -, hvalid, -⟩, -, -⟩ := h
  rw [s.recordUsable_iff, s.done_iff, hvalid]
  exact ⟨fun ⟨_, hp⟩ => hp, fun hp => ⟨.inl hp, hp⟩⟩

end Sys2Proof.Machine
end

section
/-! The obligations of 20_memory.md: the bytes of `BUF` at or above `BUF_LEN` are never read (R64), who writes `BUF`
(R51, R54), what a READ and the operations inside an event step leave alone (R59), big-endian reads of the buffer (R53)
and the register port map (R56). -/

namespace Sys2Proof.Machine

/-! ### Stale bytes -/

/-- `m` may stand in the place of `BUF`: both are canonical, and they agree below `BUF_LEN`. -/
def StaleSwap (s : State) (m : Memory) : Prop :=
  s.buf.wf ∧ m.wf ∧ ∀ a, a < s.bufLen → s.buf.read a = m.read a

/-- States that are the same but for stale bytes differ by such a swap. -/
theorem State.sameButStale_iff (s t : State) :
    s.sameButStale t ↔ t = { s with buf := t.buf } ∧ ∀ a, a < s.bufLen → s.buf.read a = t.buf.read a := by
  constructor
  · rintro ⟨⟨hphase, hattempt, hlen, hregs, hvalid, herr, hign⟩, ⟨hcfg, hpend, hrdata, hmatch, hrec⟩, hout, hbuf⟩
    refine ⟨?_, hbuf⟩
    cases t
    simp_all
  · rintro ⟨ht, hbuf⟩
    rw [ht]
    exact ⟨⟨rfl, rfl, rfl, rfl, rfl, rfl, rfl⟩, ⟨rfl, rfl, rfl, rfl, rfl⟩, rfl, hbuf⟩

/-- A swap shows in no byte that a rule reads. -/
theorem StaleSwap.frame_eq {s : State} {m : Memory} (h : StaleSwap s m) :
    State.frame { s with buf := m } = s.frame := by
  obtain ⟨-, -, hread⟩ := h
  exact (State.frame_congr s { s with buf := m } rfl hread).symm

/-- With `BUF_LEN` = 0 every byte is stale. -/
theorem StaleSwap.of_bufLen_zero {s t : State} {m : Memory} (h : StaleSwap s m) (hbuf : t.buf = s.buf)
    (hlen : t.bufLen = 0) : StaleSwap t m := by
  obtain ⟨hs, hm, -⟩ := h
  exact ⟨hbuf ▸ hs, hm, fun a ha => by omega⟩

/-- A meaning to which a swap makes no difference but for stale bytes. -/
def MeaningStaleInert (f : State → Host.Outcome State Fault Refusal) : Prop :=
  ∀ s m t, StaleSwap s m → f s = .next t → ∃ m', StaleSwap t m' ∧ f { s with buf := m } = .next { t with buf := m' }

/-- The same for the state function of a meaning that always completes. -/
def StaleInert (g : State → State) : Prop :=
  ∀ s m, StaleSwap s m → ∃ m', StaleSwap (g s) m' ∧ g { s with buf := m } = { g s with buf := m' }

theorem StaleInert.next {g : State → State} (hg : StaleInert g) : MeaningStaleInert (fun s => .next (g s)) := by
  intro s m t h he
  cases he
  obtain ⟨m', hswap, heq⟩ := hg s m h
  exact ⟨m', hswap, congrArg Host.Outcome.next heq⟩

theorem StaleInert.comp {g h : State → State} (hg : StaleInert g) (hh : StaleInert h) :
    StaleInert (fun s => g (h s)) := by
  intro s m hswap
  obtain ⟨m₁, hswap₁, heq₁⟩ := hh s m hswap
  obtain ⟨m₂, hswap₂, heq₂⟩ := hg (h s) m₁ hswap₁
  exact ⟨m₂, hswap₂, (congrArg g heq₁).trans heq₂⟩

/-- A choice by a condition that does not look at stale bytes. -/
theorem StaleInert.ite {c : State → Prop} [DecidablePred c] {g h : State → State}
    (hc : ∀ s m, StaleSwap s m → (c { s with buf := m } ↔ c s)) (hg : StaleInert g) (hh : StaleInert h) :
    StaleInert (fun s => if c s then g s else h s) := by
  intro s m hswap
  by_cases hs : c s
  · simpa only [hc s m hswap, hs, if_true] using hg s m hswap
  · simpa only [hc s m hswap, hs, if_false] using hh s m hswap

theorem staleInert_ignore : StaleInert State.ignore := fun _ m h => ⟨m, h, rfl⟩

theorem staleInert_awaitSecond : StaleInert State.awaitSecond := fun _ m h => ⟨m, h, rfl⟩

theorem staleInert_newCycle : StaleInert State.newCycle := fun _ m h => ⟨m, h.of_bufLen_zero rfl rfl, rfl⟩

/-- RESET lists nothing of `BUF`, whatever it held. -/
theorem staleInert_resetBlock : StaleInert State.resetBlock := fun _ _ _ =>
  ⟨[], ⟨⟨List.Pairwise.nil, nofun⟩, ⟨List.Pairwise.nil, nofun⟩, fun _ _ => rfl⟩, rfl⟩

/-- The chunk goes to the same addresses, from `BUF_LEN`, so that both buffers agree below the new `BUF_LEN`. -/
theorem staleInert_storeChunk (data : List Byte) : StaleInert (fun s => s.storeChunk data) := by
  intro s m h
  obtain ⟨hs, hm, hread⟩ := h
  refine ⟨m.writeBytes s.bufLen data,
    ⟨Memory.wf_writeBytes data s.buf hs _, Memory.wf_writeBytes data m hm _, ?_⟩, rfl⟩
  intro a ha
  rw [State.storeChunk_bufLen] at ha
  rw [State.storeChunk_buf, Memory.read_writeBytes data s.buf hs, Memory.read_writeBytes data m hm]
  by_cases hnew : s.bufLen ≤ a
  · rw [if_pos ⟨hnew, ha⟩, if_pos ⟨hnew, ha⟩]
  · rw [if_neg (by omega), if_neg (by omega)]
    exact hread a (by omega)

theorem staleInert_failAttempt : StaleInert State.failAttempt :=
  StaleInert.ite (fun _ _ _ => Iff.rfl) (g := fun s => State.startAttempt { s with attempt := s.attempt + 1#4 })
    (h := fun s => State.raise { s with bufLen := 0 } .noResponse)
    (fun _ m h => ⟨m, h.of_bufLen_zero rfl rfl, rfl⟩) (fun _ m h => ⟨m, h.of_bufLen_zero rfl rfl, rfl⟩)

/-- `DecodeFn` is given the frame alone (R130). -/
theorem staleInert_complete : StaleInert State.complete := by
  intro s m h
  refine ⟨m, h.of_bufLen_zero s.complete_buf s.complete_bufLen, ?_⟩
  unfold State.complete
  rw [h.frame_eq]
  cases decodeFn s.frame <;> rfl

theorem staleInert_judgeFrame : StaleInert judgeFrame :=
  StaleInert.ite (c := fun s => termOk s.frame = true) (fun _ _ h => by rw [h.frame_eq]) staleInert_complete
    staleInert_failAttempt

theorem execStart_staleInert : MeaningStaleInert execStart :=
  StaleInert.next
    (.ite (c := fun s => s.phase.waiting = true) (fun _ _ _ => Iff.rfl) staleInert_ignore staleInert_newCycle)

theorem execTimeout_staleInert : MeaningStaleInert execTimeout :=
  StaleInert.next
    (.ite (c := fun s => s.phase.waiting = true) (fun _ _ _ => Iff.rfl) staleInert_failAttempt staleInert_ignore)

theorem execChunk_staleInert (data : List Byte) : MeaningStaleInert (execChunk data) :=
  StaleInert.next
    (.ite (c := fun s => (!s.phase.waiting) = true) (fun _ _ _ => Iff.rfl) staleInert_ignore
      (.ite (c := fun s => s.cfg.frameBufBytes < s.bufLen + data.length) (fun _ _ _ => Iff.rfl) staleInert_failAttempt
        (.ite (c := fun s => s.phase = .wait0) (fun _ _ _ => Iff.rfl)
          (staleInert_awaitSecond.comp (staleInert_storeChunk data))
          (staleInert_judgeFrame.comp (staleInert_storeChunk data)))))

theorem extractTo_staleInert (f : List Byte) (o n : Nat) (set : Record → Record) :
    MeaningStaleInert (extractTo f o n set) := by
  intro s m t h he
  obtain ⟨hfits, rfl⟩ := extractTo_next f o n set s t he
  exact ⟨m, h, if_pos hfits⟩

theorem applyRow_staleInert (row : ProtRow) (w : Half) : MeaningStaleInert (applyRow row w) :=
  StaleInert.next (.ite (c := fun _ => row.applies w = true) (fun _ _ _ => Iff.rfl)
    (g := fun s => s.latchField (fun r => { r with pcode := row.code })) (fun _ m h => ⟨m, h, rfl⟩)
    (fun _ m h => ⟨m, h, rfl⟩))

/-- No operation looks at a stale byte (R64). -/
theorem exec_staleInert (i : Instr) : MeaningStaleInert (exec i) := by
  cases i with
  | start => exact execStart_staleInert
  | chunk d => exact execChunk_staleInert d
  | timeout => exact execTimeout_staleInert
  | reserved low => exact staleInert_ignore.next
  | reset => exact staleInert_resetBlock.next
  | nop | read idx | sendreq | startMarker f | term f =>
    intro s m t h he
    cases he
    exact ⟨m, h, rfl⟩
  | extVmain f | extImain f | extRemcap f | extNomcap f | extNcyc f | extProt f | extSoc f =>
    exact extractTo_staleInert _ _ _ _
  | protOk w | protBit0 w | protBit1 w | protBit2 w | protBit3 w | protBit4 w | protBit5 w | protBit6 w | protBit7 w
  | protBit8 w | protBit9 w | protBit10 w | protBit11 w | protBit12 w => exact applyRow_staleInert _ w

/-- With nothing presented the block waits (R114). -/
theorem step_of_pending_nil (s : State) (hv : s.cfg.valid = true) (hp : s.pending = []) :
    step s = .next (s.present []) := by
  simp [step, hv, hp]

/-- A step takes the transaction off the list and runs it; neither looks at a stale byte. -/
theorem step_staleInert : MeaningStaleInert step := by
  intro s m t h hs
  obtain ⟨hv, ⟨hnil, rfl⟩ | ⟨x, rest, i, hcons, hd, he⟩⟩ := step_cases s t hs
  · exact ⟨m, h, step_of_pending_nil { s with buf := m } hv hnil⟩
  · rw [step_of_decode_ok { s with buf := m } x rest i hv hcons hd]
    exact exec_staleInert i (s.present rest) m t h he

/-- Settles O36: states that differ in stale bytes differ by a swap of `BUF`, to which a step is inert. -/
theorem staleBufferBytesAreNeverRead : Obligations.StaleBufferBytesAreNeverRead := by
  unfold Obligations.StaleBufferBytesAreNeverRead
  intro s s' t hwf hwf' hsame hs
  obtain ⟨heq, hread⟩ := (s.sameButStale_iff s').1 hsame
  obtain ⟨m, ⟨-, -, hread'⟩, hs'⟩ := step_staleInert s s'.buf t ⟨hwf, hwf', hread⟩ hs
  rw [← heq] at hs'
  exact ⟨{ t with buf := m }, hs', (t.sameButStale_iff _).2 ⟨rfl, hread'⟩⟩

/-! ### Who writes `BUF` -/

@[simp] theorem judgeFrame_buf (s : State) : (judgeFrame s).buf = s.buf := by
  rcases judgeFrame_cases s with ⟨-, ht⟩ | ⟨-, ht⟩ <;> simp [ht]

theorem State.sameBuf_of_buf_eq {s t : State} (h : t.buf = s.buf) : s.sameBuf t := fun _ => by rw [h]

/-- What an operation does to `BUF`: RESET empties it, a CHUNK that fits into a waiting attempt is stored, all else
leaves it. -/
theorem exec_buf_cases (i : Instr) (s t : State) (he : exec i s = .next t) :
    t.buf = s.buf
    ∨ i = .reset
    ∨ ∃ d, i = .chunk d ∧ s.phase.waiting = true ∧ s.bufLen + d.length ≤ s.cfg.frameBufBytes
        ∧ t.buf = s.buf.writeBytes s.bufLen d := by
  rcases exec_cases i s t he with ⟨-, rfl⟩ | ⟨-, -, rfl⟩ | ⟨-, -, rfl⟩ | ⟨d, -, -, -, rfl⟩ | ⟨d, hi, hp, hfit, rfl⟩ |
    ⟨d, hi, hp, hfit, rfl⟩ | ⟨hi, rfl⟩ | ⟨-, rfl⟩ | ⟨-, -, -, -, d, m, r, rfl⟩
  · exact .inl rfl
  · exact .inl rfl
  · exact .inl s.failAttempt_buf
  · exact .inl s.failAttempt_buf
  · exact .inr (.inr ⟨d, hi, (Phase.waiting_iff _).2 (.inl hp), hfit, rfl⟩)
  · exact .inr (.inr ⟨d, hi, (Phase.waiting_iff _).2 (.inr hp), hfit, judgeFrame_buf (s.storeChunk d)⟩)
  · exact .inr (.inl hi)
  · exact .inl rfl
  · exact .inl rfl

/-- Settles O27: an operation that changes a byte is a RESET or stores its chunk at `BUF_LEN`. -/
theorem onlyChunkWritesTheBuffer : Obligations.OnlyChunkWritesTheBuffer := by
  unfold Obligations.OnlyChunkWritesTheBuffer
  intro i s t hwf he hne
  rcases exec_buf_cases i s t he with hsame | hreset | ⟨d, hi, hw, hfit, hbuf⟩
  · exact absurd (State.sameBuf_of_buf_eq hsame) hne
  · exact .inl hreset
  · refine .inr ⟨d, hi, hw, hfit, fun a => ?_⟩
    rw [hbuf, Memory.read_writeBytes d s.buf hwf]

/-- Settles O43: a stored string is read back and the canonical form stays, by the lemmas about a stored chunk. -/
theorem storedBytesReadBack : Obligations.StoredBytesReadBack := by
  unfold Obligations.StoredBytesReadBack
  intro m a a' c hwf
  exact ⟨Memory.wf_writeBytes c m hwf a, Memory.read_writeBytes c m hwf a a'⟩

/-! ### Operations that are no step of the block -/

/-- Only events are ignored, and they are steps of the block. -/
theorem ignoredIn_blockStep (i : Instr) (s : State) (h : ignoredIn i s) : i.blockStep = true := by
  rcases h with ⟨rfl, -⟩ | ⟨⟨d, rfl⟩ | rfl, -⟩ | ⟨low, rfl⟩ <;> rfl

/-- An operation that is no step of the block writes the model's latches alone, or is SENDREQ (R59, R191). -/
theorem exec_of_not_blockStep (i : Instr) (s t : State) (hi : i.blockStep = false) (he : exec i s = .next t) :
    (i = .sendreq ∧ t = s.emitRequest) ∨ ∃ d m r, t = { s with rdata := d, matched := m, unitRec := r } := by
  rcases exec_cases i s t he with ⟨hign, -⟩ | ⟨rfl, -⟩ | ⟨rfl, -⟩ | ⟨d, rfl, -⟩ | ⟨d, rfl, -⟩ | ⟨d, rfl, -⟩ |
    ⟨rfl, -⟩ | hsend | ⟨-, -, -, -, hlatch⟩
  · rw [ignoredIn_blockStep i s hign] at hi
    cases hi
  iterate 6 · cases hi
  · exact .inl hsend
  · exact .inr hlatch

theorem State.sameBlock_refl (s : State) : s.sameBlock s :=
  ⟨⟨rfl, rfl, rfl, rfl, rfl, rfl, rfl⟩, fun _ => rfl⟩

/-- Settles O37: the latches are no element of R20, and SENDREQ writes the output alone. -/
theorem readsAndUnitOperationsLeaveTheBlockAlone : Obligations.ReadsAndUnitOperationsLeaveTheBlockAlone := by
  unfold Obligations.ReadsAndUnitOperationsLeaveTheBlockAlone
  intro i s t hi he
  rcases exec_of_not_blockStep i s t hi he with ⟨hsend, rfl⟩ | ⟨d, m, r, rfl⟩
  · exact ⟨s.sameBlock_refl, rfl, rfl, rfl, fun hne => absurd hsend hne⟩
  · exact ⟨s.sameBlock_refl, rfl, rfl, rfl, fun _ => rfl⟩

/-! ### `MemRead` -/

/-- A read below `BUF_LEN` is the big-endian value of the bytes at its addresses (R52, R53). -/
theorem State.memRead_eq_some (s : State) (a n : Nat) (h : a + n ≤ s.bufLen) :
    s.memRead a n = some (beValue ((List.range' a n).map s.buf.read)) := by
  have hbytes : (s.frame.drop a).take n = (List.range' a n).map s.buf.read := by
    rw [State.frame, List.range_eq_range', ← List.map_drop, ← List.map_take, List.drop_range',
      List.take_range'_of_length_ge (by omega), Nat.zero_add, Nat.mul_one]
  rw [State.memRead, Machine.memRead, if_pos (by rwa [s.frame_length]), hbytes]

theorem State.memRead_eq_none (s : State) (a n : Nat) (h : s.bufLen < a + n) : s.memRead a n = none :=
  if_neg (by rw [s.frame_length]; omega)

theorem State.memRead_one (s : State) (a : Nat) (h : a + 1 ≤ s.bufLen) :
    s.memRead a 1 = some (s.buf.read a).toNat := by
  simp [s.memRead_eq_some a 1 h, beValue]

theorem State.memRead_two (s : State) (a : Nat) (h : a + 2 ≤ s.bufLen) :
    s.memRead a 2 = some ((s.buf.read a).toNat * 256 + (s.buf.read (a + 1)).toNat) := by
  simp [s.memRead_eq_some a 2 h, beValue, List.range']

/-- Settles O41: reads of one and two bytes, and reads past `BUF_LEN`. -/
theorem memReadIsBigEndian : Obligations.MemReadIsBigEndian := by
  unfold Obligations.MemReadIsBigEndian
  intro s a
  refine ⟨s.memRead_one a, fun h => ⟨s.memRead_two a h, ?_⟩, s.memRead_eq_none a⟩
  exact ⟨_, _, s.memRead_one a (by omega), s.memRead_one (a + 1) h, s.memRead_two a h⟩

/-! ### Extractors and register reads -/

/-- Settles O46: the last byte of a field stands at `HDR_LEN` + offset + width - 1. -/
theorem extractorsStopPastTheFrame : Obligations.ExtractorsStopPastTheFrame := by
  unfold Obligations.ExtractorsStopPastTheFrame
  intro f s
  exact ⟨extractTo_fault f 0 2 _ s, extractTo_fault f 2 2 _ s, extractTo_fault f 4 2 _ s, extractTo_fault f 6 2 _ s,
    extractTo_fault f 8 2 _ s, extractTo_fault f 16 2 _ s, extractTo_fault f 19 1 _ s⟩

theorem zext16_eq_ofNat {n : Nat} (v : BitVec n) : zext16 v = BitVec.ofNat 16 v.toNat := (BitVec.ofNat_toNat 16 v).symm

/-- The indexes above that of `PCODE` are unmapped (R56). -/
theorem State.regMap_unmapped (s : State) (idx : BitVec 4) (h : 9 ≤ idx.toNat) : s.regMap idx = 0x0000#16 := by
  unfold State.regMap
  split
  case h_10 => rfl
  all_goals omega

theorem exec_read (idx : BitVec 4) (s : State) : exec (.read idx) s = .next { s with rdata := s.regMap idx } := rfl

/-- Settles O57: the port map of R56, index by index. -/
theorem readGivesTheMappedRegister : Obligations.ReadGivesTheMappedRegister := by
  unfold Obligations.ReadGivesTheMappedRegister
  intro s
  refine ⟨rfl, rfl, rfl, rfl, rfl, rfl, rfl, ?soc, ?pcode, fun idx h => ?unmapped⟩
  case soc => rw [← zext16_eq_ofNat]; rfl
  case pcode => rw [← zext16_eq_ofNat]; rfl
  case unmapped => rw [exec_read, s.regMap_unmapped idx h]

end Sys2Proof.Machine
end

section
/-! The obligations of 30_encoding.md: decoding and encoding undo each other (R70 to R77, R84, R177), the host's moves
complete (R88, R222), when a request is emitted (R76), where a reply is split (R79), and which bytes of a frame count
(R78, R85). -/

namespace Sys2Proof.Machine

/-! ### The tables of the decoder -/

/-- Decoding what the encoder gives, operation by operation. -/
theorem decode_encode (i : Instr) : i.wellFormed = true → decode (encode i) = .ok i :=
  match i with
  | .nop => Laws.RoundTrip.nop
  | .start => Laws.RoundTrip.start
  | .chunk data => Laws.RoundTrip.chunk data
  | .timeout => Laws.RoundTrip.timeout
  | .reserved low => Laws.RoundTrip.reserved low
  | .reset => Laws.RoundTrip.reset
  | .read idx => Laws.RoundTrip.read idx
  | .sendreq => Laws.RoundTrip.sendreq
  | .startMarker f => Laws.RoundTrip.startMarker f
  | .term f => Laws.RoundTrip.term f
  | .extVmain f => Laws.RoundTrip.extVmain f
  | .extImain f => Laws.RoundTrip.extImain f
  | .extRemcap f => Laws.RoundTrip.extRemcap f
  | .extNomcap f => Laws.RoundTrip.extNomcap f
  | .extNcyc f => Laws.RoundTrip.extNcyc f
  | .extProt f => Laws.RoundTrip.extProt f
  | .extSoc f => Laws.RoundTrip.extSoc f
  | .protOk w => Laws.RoundTrip.protOk w
  | .protBit0 w => Laws.RoundTrip.protBit0 w
  | .protBit1 w => Laws.RoundTrip.protBit1 w
  | .protBit2 w => Laws.RoundTrip.protBit2 w
  | .protBit3 w => Laws.RoundTrip.protBit3 w
  | .protBit4 w => Laws.RoundTrip.protBit4 w
  | .protBit5 w => Laws.RoundTrip.protBit5 w
  | .protBit6 w => Laws.RoundTrip.protBit6 w
  | .protBit7 w => Laws.RoundTrip.protBit7 w
  | .protBit8 w => Laws.RoundTrip.protBit8 w
  | .protBit9 w => Laws.RoundTrip.protBit9 w
  | .protBit10 w => Laws.RoundTrip.protBit10 w
  | .protBit11 w => Laws.RoundTrip.protBit11 w
  | .protBit12 w => Laws.RoundTrip.protBit12 w

/-- Settles O1: the round trip of each operation. -/
theorem decodeOfEncodeIsTheOperation : Obligations.DecodeOfEncodeIsTheOperation := decode_encode

/-- An operation of the field table is well formed on the frames that passed the validator, and its descriptor is that
of its table entry (R84). -/
theorem fieldTable_entry : ∀ e ∈ fieldTable, ∀ f, (e.2 f).wellFormed = validFrame f ∧ encode (e.2 f) = .field e.1 f := by
  simp [fieldTable, Instr.wellFormed, encode]

/-- An operation of the protection table is well formed on the words its row applies to, and stands for its word
(R177). -/
theorem protTable_entry : ∀ e ∈ protTable, ∀ w, (e.2 w).wellFormed = e.1.applies w ∧ encode (e.2 w) = .prot w := by
  simp [protTable, Instr.wellFormed, encode]

theorem wellFormed_encode_of_decodeField (d : FieldDesc) (f : List Byte) (i : Instr) (h : decodeField d f = .ok i) :
    i.wellFormed = true ∧ encode i = .field d f := by
  obtain ⟨hvalid, e, hmem, rfl, rfl⟩ := decodeField_ok d f i h
  obtain ⟨hwf, henc⟩ := fieldTable_entry e hmem f
  exact ⟨hwf.trans hvalid, henc⟩

theorem wellFormed_encode_of_decodeProt (w : Half) (i : Instr) (h : decodeProt w = .ok i) :
    i.wellFormed = true ∧ encode i = .prot w := by
  obtain ⟨e, hmem, happlies, rfl⟩ := decodeProt_ok w i h
  obtain ⟨hwf, henc⟩ := protTable_entry e hmem w
  exact ⟨hwf.trans happlies, henc⟩

theorem decode_sendreq_ok (word : BitVec 56) (i : Instr) (h : decode (.sendreq word) = .ok i) :
    word = reqWord ∧ i = .sendreq := by
  simp only [decode] at h
  split at h
  · cases h
    exact ⟨by assumption, rfl⟩
  · cases h

/-! ### The step ports -/

/-- What the step ports present is a step of the block, and well formed: every operand is admitted (R73, R88, R110). -/
theorem decodePorts_blockStep_wellFormed (rst : BitVec 1) (ev : BitVec 3) (data : List Byte) :
    (decodePorts rst ev data).blockStep = true ∧ (decodePorts rst ev data).wellFormed = true := by
  unfold decodePorts decodeEvent
  repeat' split
  all_goals exact ⟨rfl, rfl⟩

/-- The reserved codes are those with the high bit set (R71). -/
theorem reserved_code : ∀ ev : BitVec 3, ev ≠ 0b000#3 → ev ≠ 0b001#3 → ev ≠ 0b010#3 → ev ≠ 0b011#3 →
    1#1 ++ ev.setWidth 2 = ev ∧ ev.setWidth 2 = BitVec.ofNat 2 (ev.toNat - 4) := by
  decide

/-- The code of an event is kept, its operand only where it is a CHUNK (R71, R110; log entry 2). -/
theorem encode_decodeEvent (ev : BitVec 3) (data : List Byte) :
    encode (decodeEvent ev data) = eventTxn ev (if ev = 0b010#3 then data else []) := by
  unfold decodeEvent
  split
  · subst ev; rfl
  split
  · subst ev; rfl
  split
  · subst ev; rfl
  split
  · subst ev; rfl
  next hnop hstart hchunk htimeout =>
    exact congrArg (eventTxn · []) (reserved_code ev hnop hstart hchunk htimeout).1

/-- A transaction without the bits that no operation reads (R110, R218; log entry 2). -/
def canonicalTxn : Txn → Txn
  | .ports rst ev data => if rst = 1#1 then .ports 1#1 0#3 [] else .ports 0#1 ev (if ev = 0b010#3 then data else [])
  | x => x

theorem encode_decodePorts (rst : BitVec 1) (ev : BitVec 3) (data : List Byte) :
    encode (decodePorts rst ev data) = canonicalTxn (.ports rst ev data) := by
  by_cases hrst : rst = 1#1
  · rw [decodePorts, canonicalTxn, if_pos hrst, if_pos hrst]
    rfl
  · rw [decodePorts, canonicalTxn, if_neg hrst, if_neg hrst]
    exact encode_decodeEvent ev data

/-- What the decoder answers is well formed and stands for the transaction, format by format. -/
theorem wellFormed_encode_of_decode (x : Txn) (i : Instr) (h : decode x = .ok i) :
    i.wellFormed = true ∧ encode i = canonicalTxn x := by
  cases x with
  | ports rst ev data =>
    cases h
    exact ⟨(decodePorts_blockStep_wellFormed rst ev data).2, encode_decodePorts rst ev data⟩
  | regport idx =>
    cases h
    exact ⟨rfl, rfl⟩
  | sendreq word =>
    obtain ⟨rfl, rfl⟩ := decode_sendreq_ok word i h
    exact ⟨rfl, rfl⟩
  | frame test f =>
    cases h
    cases test <;> exact ⟨rfl, rfl⟩
  | field d f => exact wellFormed_encode_of_decodeField d f i h
  | prot w => exact wellFormed_encode_of_decodeProt w i h

/-- Settles O2: the entries of the decoder's tables carry the checks of their rows. -/
theorem decoderAnswersWellFormed : Obligations.DecoderAnswersWellFormed := by
  unfold Obligations.DecoderAnswersWellFormed
  intro x i h
  exact (wellFormed_encode_of_decode x i h).1

/-- Settles O3: the entries of the decoder's tables are encoded as their rows. -/
theorem encodeOfDecodeIsTheTransaction : Obligations.EncodeOfDecodeIsTheTransaction := by
  unfold Obligations.EncodeOfDecodeIsTheTransaction
  intro x i h
  obtain ⟨-, henc⟩ := wellFormed_encode_of_decode x i h
  cases x with
  | ports rst ev data | regport idx | sendreq word | frame test f | field d f | prot w => exact henc

/-- Settles O5: the tests of the code by its value; past them the code is a reserved one. -/
theorem everyEventCodeDecodes : Obligations.EveryEventCodeDecodes := by
  unfold Obligations.EveryEventCodeDecodes
  intro ev data
  show Decoded.ok (decodeEvent ev data) = _
  congr 1
  unfold decodeEvent
  simp only [← BitVec.toNat_inj]
  iterate 4 refine ite_congr rfl (fun _ => rfl) (fun _ => ?_)
  next hnop hstart hchunk htimeout =>
    refine congrArg Instr.reserved (reserved_code ev ?_ ?_ ?_ ?_).2 <;> rintro rfl <;> contradiction

/-- Settles O4: words that carry no dropped bits are those of the round trip. -/
theorem wordsOfTheTablesDecode : Obligations.WordsOfTheTablesDecode := by
  unfold Obligations.WordsOfTheTablesDecode
  exact ⟨decode_encode .nop rfl, decode_encode .start rfl, decode_encode (.chunk _) rfl, decode_encode .timeout rfl,
    rfl, rfl, decode_encode (.read _) rfl, decode_encode .sendreq rfl, decode_encode (.startMarker _) rfl,
    decode_encode (.term _) rfl, decode_encode (.extSoc _) (by decide), decode_encode (.protBit11 _) (by decide)⟩

/-! ### The host's moves -/

/-- What the host presents is a step of the block or a READ (R88, R244). -/
theorem decode_hostMove (x : Txn) (h : x.hostMove = true) :
    ∃ i, decode x = .ok i ∧ (i.blockStep = true ∨ ∃ idx, i = .read idx) := by
  cases x with
  | ports rst ev data => exact ⟨_, rfl, .inl (decodePorts_blockStep_wellFormed rst ev data).1⟩
  | regport idx => exact ⟨_, rfl, .inr ⟨idx, rfl⟩⟩
  | sendreq word | frame test f | field d f | prot w => cases h

/-- A step of the block completes in every state (R222). -/
theorem exec_completes_of_blockStep (i : Instr) (s : State) (h : i.blockStep = true) : ∃ t, exec i s = .next t := by
  cases i with
  | nop | start | chunk d | timeout | reserved low | reset => exact ⟨_, rfl⟩
  | read idx | sendreq | startMarker f | term f | extVmain f | extImain f | extRemcap f | extNomcap f | extNcyc f
  | extProt f | extSoc f | protOk w | protBit0 w | protBit1 w | protBit2 w | protBit3 w | protBit4 w | protBit5 w
  | protBit6 w | protBit7 w | protBit8 w | protBit9 w | protBit10 w | protBit11 w | protBit12 w => cases h

@[simp] theorem judgeFrame_pending (s : State) : (judgeFrame s).pending = s.pending := by
  rcases judgeFrame_cases s with ⟨-, ht⟩ | ⟨-, ht⟩ <;> simp [ht]

/-- No operation changes what the host has still to present (log entry 1). -/
theorem exec_pending (i : Instr) (s t : State) (he : exec i s = .next t) : t.pending = s.pending := by
  rcases exec_cases i s t he with ⟨-, rfl⟩ | ⟨-, -, rfl⟩ | ⟨-, -, rfl⟩ | ⟨d, -, -, -, rfl⟩ | ⟨d, -, -, -, rfl⟩ |
    ⟨d, -, -, -, rfl⟩ | ⟨-, rfl⟩ | ⟨-, rfl⟩ | ⟨-, -, -, -, d, m, r, rfl⟩
  all_goals simp

/-- Settles O9: the transaction decodes, and its operation completes. -/
theorem hostMovesAlwaysComplete : Obligations.HostMovesAlwaysComplete := by
  unfold Obligations.HostMovesAlwaysComplete
  intro s x rest hv hp hx
  obtain ⟨i, hd, hi⟩ := decode_hostMove x hx
  obtain ⟨t, he⟩ : ∃ t, exec i (s.present rest) = .next t := by
    rcases hi with hblock | ⟨idx, rfl⟩
    · exact exec_completes_of_blockStep i _ hblock
    · exact ⟨_, rfl⟩
  exact ⟨t, (step_of_decode_ok s x rest i hv hp hd).trans he, exec_pending i (s.present rest) t he,
    exec_cfg i (s.present rest) t he⟩

/-! ### Requests -/

/-- Settles O48: SENDREQ is the emission of `REQ` alone. -/
theorem sendreqEmitsTheRequest : Obligations.SendreqEmitsTheRequest := fun _ => rfl

/-- `t` stands at the start of an attempt that was not running in `s` (R102). -/
def AttemptStarts (s t : State) : Prop := t.phase = .wait0 ∧ (s.phase ≠ .wait0 ∨ t.attempt ≠ s.attempt)

/-- One `SendReq(REQ)` and the start of an attempt, or neither (R76). -/
def SendReqIffStarts (s t : State) : Prop :=
  (t.out = s.out ++ [.sendReq req] ∧ t.bufLen = 0 ∧ AttemptStarts s t) ∨ (t.out = s.out ∧ ¬ AttemptStarts s t)

theorem SendReqIffStarts.of_unchanged {s t : State} (hout : t.out = s.out) (hphase : t.phase = s.phase)
    (hattempt : t.attempt = s.attempt) : SendReqIffStarts s t :=
  .inr ⟨hout, fun ⟨hwait, hnew⟩ => hnew.elim (absurd (hphase ▸ hwait)) (absurd hattempt)⟩

theorem SendReqIffStarts.of_not_wait0 {s t : State} (hout : t.out = s.out) (hphase : t.phase ≠ .wait0) :
    SendReqIffStarts s t :=
  .inr ⟨hout, fun ⟨hwait, _⟩ => hphase hwait⟩

/-- The counter of attempts moves by one modulo 16, so that the next attempt is a new one (R22). -/
theorem attempt_succ_ne (a : BitVec 4) : a + 1#4 ≠ a := by
  revert a
  decide

theorem sendReqIffStarts_newCycle (s : State) (hw : s.phase.waiting = false) : SendReqIffStarts s s.newCycle := by
  refine .inl ⟨rfl, rfl, rfl, .inl fun hp => ?_⟩
  rw [hp] at hw
  cases hw

theorem sendReqIffStarts_failAttempt (s : State) : SendReqIffStarts s s.failAttempt := by
  rcases s.failAttempt_cases with ⟨-, ht⟩ | ⟨-, ht⟩
  · rw [ht]
    exact .inl ⟨rfl, rfl, rfl, .inr (attempt_succ_ne s.attempt)⟩
  · rw [ht]
    exact .of_not_wait0 rfl nofun

theorem sendReqIffStarts_complete (s : State) : SendReqIffStarts s s.complete := by
  rcases s.complete_cases with ⟨r, -, ht⟩ | ⟨-, ht⟩
  · rw [ht]
    exact .of_not_wait0 rfl nofun
  · rw [ht]
    exact .of_not_wait0 rfl nofun

theorem sendReqIffStarts_judgeFrame (s : State) : SendReqIffStarts s (judgeFrame s) := by
  rcases judgeFrame_cases s with ⟨-, ht⟩ | ⟨-, ht⟩
  · rw [ht]
    exact sendReqIffStarts_complete s
  · rw [ht]
    exact sendReqIffStarts_failAttempt s

theorem exec_sendReqIffStarts (i : Instr) (s t : State) (hi : i.blockStep = true) (he : exec i s = .next t) :
    SendReqIffStarts s t := by
  rcases exec_cases i s t he with ⟨-, rfl⟩ | ⟨-, hw, rfl⟩ | ⟨-, -, rfl⟩ | ⟨d, -, -, -, rfl⟩ | ⟨d, -, -, -, rfl⟩ |
    ⟨d, -, -, -, rfl⟩ | ⟨-, rfl⟩ | ⟨rfl, -⟩ | ⟨-, -, -, -, d, m, r, rfl⟩
  · exact .of_unchanged rfl rfl rfl
  · exact sendReqIffStarts_newCycle s hw
  · exact sendReqIffStarts_failAttempt s
  · exact sendReqIffStarts_failAttempt s
  · exact .of_not_wait0 rfl nofun
  · exact sendReqIffStarts_judgeFrame (s.storeChunk d)
  · exact .of_not_wait0 rfl nofun
  · cases hi
  · exact .of_unchanged rfl rfl rfl

/-- Settles O29: of all that an event or reset can do, StartAttempt alone emits, and it alone starts an attempt. -/
theorem sendReqExactlyWhenAnAttemptStarts : Obligations.SendReqExactlyWhenAnAttemptStarts := by
  unfold Obligations.SendReqExactlyWhenAnAttemptStarts
  intro i s t hi he
  rcases exec_sendReqIffStarts i s t hi he with ⟨hout, hlen, hwait, hnew⟩ | hnone
  · exact .inl ⟨hout, hwait, hlen, hnew⟩
  · exact .inr hnone

/-! ### The two chunks of a reply -/

/-- Storing two strings one after the other is storing their concatenation (R54). -/
theorem Memory.writeBytes_append (xs ys : List Byte) (m : Memory) (a : Nat) :
    (m.writeBytes a xs).writeBytes (a + xs.length) ys = m.writeBytes a (xs ++ ys) := by
  induction xs generalizing m a with
  | nil => rfl
  | cons x xs ih => rw [List.length_cons, Nat.add_comm xs.length, ← Nat.add_assoc]; exact ih _ _

theorem State.storeChunk_append (s : State) (xs ys : List Byte) :
    (s.storeChunk xs).storeChunk ys = s.storeChunk (xs ++ ys) := by
  unfold State.storeChunk
  simp only [Memory.writeBytes_append, List.length_append, Nat.add_assoc]

/-- The first chunk of an attempt, where it fits (R108). -/
theorem exec_chunk_of_wait0 (d : List Byte) (s : State) (hp : s.phase = .wait0)
    (hfit : s.bufLen + d.length ≤ s.cfg.frameBufBytes) : exec (.chunk d) s = .next (s.storeChunk d).awaitSecond := by
  simp [exec, execChunk, hp, Phase.waiting, Nat.not_lt.2 hfit]

/-- The second chunk of an attempt, where it fits (R108). -/
theorem exec_chunk_of_wait1 (d : List Byte) (s : State) (hp : s.phase = .wait1)
    (hfit : s.bufLen + d.length ≤ s.cfg.frameBufBytes) : exec (.chunk d) s = .next (judgeFrame (s.storeChunk d)) := by
  simp [exec, execChunk, hp, Phase.waiting, Nat.not_lt.2 hfit]

/-- Two chunks that fit are judged as their concatenation (R112). -/
theorem execAll_two_chunks (xs ys : List Byte) (s : State) (hp : s.phase = .wait0)
    (hfit : s.bufLen + (xs ++ ys).length ≤ s.cfg.frameBufBytes) :
    execAll [.chunk xs, .chunk ys] s = .next (judgeFrame (s.awaitSecond.storeChunk (xs ++ ys))) := by
  rw [List.length_append, ← Nat.add_assoc] at hfit
  have hfirst := exec_chunk_of_wait0 xs s hp (by omega)
  have hsecond := exec_chunk_of_wait1 ys (s.storeChunk xs).awaitSecond rfl hfit
  rw [← State.storeChunk_append]
  simp only [execAll, hfirst, hsecond]
  rfl

/-- Settles O35: either cut leads to the state in which the whole reply is judged. -/
theorem splitPointOfAReplyIsInvisible : Obligations.SplitPointOfAReplyIsInvisible := by
  unfold Obligations.SplitPointOfAReplyIsInvisible
  intro s reply j k h hp hfit
  obtain ⟨-, hseq, -, -⟩ := h
  obtain ⟨-, -, hempty, -⟩ := (s.sequencerInv_iff_of_waiting ((Phase.waiting_iff _).2 (.inl hp))).1 hseq
  have hcut : ∀ n, execAll [.chunk (reply.take n), .chunk (reply.drop n)] s
      = .next (judgeFrame (s.awaitSecond.storeChunk reply)) := by
    intro n
    have hall := execAll_two_chunks (reply.take n) (reply.drop n) s hp
    rw [List.take_append_drop, hempty hp, Nat.zero_add] at hall
    exact hall hfit
  exact ⟨_, _, hcut j, hcut k, State.sameBlock_refl _, rfl, rfl, rfl, rfl, rfl, rfl⟩

/-! ### The bytes of a frame that count -/

/-- Settles O39: the record of an accepted frame is that of its fields. -/
theorem decodeFnExtractsTheFields : Obligations.DecodeFnExtractsTheFields := decodeFn_isRecordOf

theorem getElem?_eq_some_byteAt (f : List Byte) (i : Nat) (h : i < f.length) : f[i]? = some (byteAt f i) := by
  rw [byteAt, List.getD_eq_getElem _ _ h, List.getElem?_eq_getElem h]

theorem markerOk_congr {f g : List Byte} (h0 : f[0]? = g[0]?) (h1 : f[1]? = g[1]?) : markerOk f = markerOk g := by
  rw [markerOk, markerOk, h0, h1]

theorem termOk_congr {f g : List Byte} (hlen : f.length = g.length) (hlast : f[f.length - 1]? = g[f.length - 1]?) :
    termOk f = termOk g := by
  rw [termOk, termOk, List.getLast?_eq_getElem?, List.getLast?_eq_getElem?, hlast, hlen]

theorem fieldU16_congr {f g : List Byte} {o : Nat} (h0 : payloadByte f o = payloadByte g o)
    (h1 : payloadByte f (o + 1) = payloadByte g (o + 1)) : fieldU16 f o = fieldU16 g o := by
  rw [fieldU16, fieldU16, h0, h1]

/-- The payload offsets that some field covers (R84). -/
def FieldOffset (o : Nat) : Prop := o < 10 ∨ o = 16 ∨ o = 17 ∨ o = 19

theorem extract_congr {f g : List Byte} (h : ∀ o, FieldOffset o → payloadByte f o = payloadByte g o) :
    extract f = extract g := by
  have hword : ∀ o, FieldOffset o → FieldOffset (o + 1) → fieldU16 f o = fieldU16 g o := fun o h0 h1 =>
    fieldU16_congr (h o h0) (h (o + 1) h1)
  unfold FieldOffset at h hword
  simp only [extract, fieldS16, fieldU8, h 19 (by omega), hword 0 (by omega) (by omega),
    hword 2 (by omega) (by omega), hword 4 (by omega) (by omega), hword 6 (by omega) (by omega),
    hword 8 (by omega) (by omega), hword 16 (by omega) (by omega)]

theorem decodeFn_of_short {f : List Byte} (h : f.length < minFrameLen) : decodeFn f = .malformedFrame := if_pos h

theorem decodeFn_congr {f g : List Byte} (hlen : f.length = g.length) (hmarker : markerOk f = markerOk g)
    (hterm : termOk f = termOk g) (hrec : extract f = extract g) : decodeFn f = decodeFn g := by
  rw [decodeFn, decodeFn, hlen, hmarker, hterm, hrec]

/-- The frame indexes that nothing reads in a string of length `n` (R85). -/
def UndecodedIndex (n i : Nat) : Prop := i = 2 ∨ i = 3 ∨ (14 ≤ i ∧ i ≤ 19) ∨ i = 22 ∨ (24 ≤ i ∧ i + 2 ≤ n)

/-- A frame long enough is decoded from its other bytes: the marker, the terminator and the fields stand at none of
those indexes. -/
theorem decodeFn_congr_of_decoded {f g : List Byte} (hmin : minFrameLen ≤ f.length) (hlen : f.length = g.length)
    (hbyte : ∀ i, i < f.length → ¬ UndecodedIndex f.length i → byteAt f i = byteAt g i) : decodeFn f = decodeFn g := by
  have hget : ∀ i, i < f.length → ¬ UndecodedIndex f.length i → f[i]? = g[i]? := by
    intro i hi hdec
    rw [getElem?_eq_some_byteAt f i hi, getElem?_eq_some_byteAt g i (hlen ▸ hi), hbyte i hi hdec]
  unfold minFrameLen at hmin
  unfold UndecodedIndex at hbyte hget
  have hmarker := markerOk_congr (hget 0 (by omega) (by omega)) (hget 1 (by omega) (by omega))
  have hterm := termOk_congr hlen (hget (f.length - 1) (by omega) (by omega))
  refine decodeFn_congr hlen hmarker hterm (extract_congr fun o ho => ?_)
  unfold FieldOffset at ho
  exact hbyte (4 + o) (by omega) (by omega)

/-- Settles O40: a string too short to be a frame is rejected for its length, and any other is decoded from the bytes
that agree. -/
theorem undecodedBytesChangeNothing : Obligations.UndecodedBytesChangeNothing := by
  unfold Obligations.UndecodedBytesChangeNothing
  intro f g hlen h
  rcases Nat.lt_or_ge f.length minFrameLen with hshort | hmin
  · rw [decodeFn_of_short hshort, decodeFn_of_short (hlen ▸ hshort)]
  · exact decodeFn_congr_of_decoded hmin hlen fun i hi hdec => (h i hi).resolve_right hdec

end Sys2Proof.Machine
end

section
/-! The obligations of 40_assembler.md: what each event does in each phase (R105 to R110), how an attempt fails (R103)
or completes (R104), the table of R101, and the output of one poll (R192, R243). -/

namespace Sys2Proof.Machine

/-! ### Events that are ignored or do nothing -/

/-- Settles O7: the step presents nothing. -/
theorem stepWithoutEventWaits : Obligations.StepWithoutEventWaits := by
  unfold Obligations.StepWithoutEventWaits
  intro s hv hp
  rw [step_of_pending_nil s hv hp, State.present, ← hp]

/-- Settles O13: the first test of the code finds NOP, whose meaning is the state itself. -/
theorem nopChangesNothing : Obligations.NopChangesNothing := fun _ _ => ⟨rfl, rfl⟩

/-- An accepted START begins a cycle (R107). -/
theorem exec_start_of_not_waiting (s : State) (hw : s.phase.waiting = false) : exec .start s = .next s.newCycle := by
  simp [exec, execStart, hw]

/-- Settles O14: START is an ignored event where an attempt waits, and a new cycle elsewhere. -/
theorem startBeginsACycleOrIsIgnored : Obligations.StartBeginsACycleOrIsIgnored := by
  unfold Obligations.StartBeginsACycleOrIsIgnored
  intro s data
  refine ⟨rfl, fun hp => ?_, fun hp => ?_⟩
  · exact exec_of_ignoredIn .start s (.inl ⟨rfl, (Phase.waiting_iff _).2 hp⟩)
  · exact exec_start_of_not_waiting s ((Phase.not_waiting_iff _).2 hp)

/-- The operand is that of CHUNK alone (R71, R110; log entry 2). -/
theorem decodeEvent_of_ne_chunk (ev : BitVec 3) (data : List Byte) (h : ev ≠ 0b010#3) :
    decodeEvent ev data = decodeEvent ev [] := by
  simp [decodeEvent, h]

theorem reserved_code_ne_chunk : ∀ low : BitVec 2, 1#1 ++ low ≠ 0b010#3 := by decide

/-- Settles O15: without the operand, which is dropped, the transaction is the encoding of the reserved code. -/
theorem reservedCodesOnlySetIgn : Obligations.ReservedCodesOnlySetIgn := by
  unfold Obligations.ReservedCodesOnlySetIgn
  intro s low data
  have hdrop := decodeEvent_of_ne_chunk (1#1 ++ low) data (reserved_code_ne_chunk low)
  exact ⟨(congrArg Decoded.ok hdrop).trans (decode_encode (.reserved low) rfl),
    exec_of_ignoredIn (.reserved low) s (.inr (.inr ⟨low, rfl⟩))⟩

/-- Settles O16: outside an attempt a CHUNK is an ignored event. -/
theorem chunkOutsideAnAttemptOnlySetsIgn : Obligations.ChunkOutsideAnAttemptOnlySetsIgn := by
  unfold Obligations.ChunkOutsideAnAttemptOnlySetsIgn
  intro s data hp
  exact exec_of_ignoredIn (.chunk data) s (.inr (.inl ⟨.inl ⟨data, rfl⟩, (Phase.not_waiting_iff _).2 hp⟩))

/-! ### Failed attempts -/

/-- FailAttempt (R103): within the budget the next attempt starts, at its end `NoResponse` is raised. -/
theorem attemptFailed_failAttempt (s : State) (hv : s.cfg.valid = true) : AttemptFailed s s.failAttempt := by
  have hframe : s.failAttempt.bufLen = 0 ∧ s.failAttempt.regs = s.regs ∧ s.failAttempt.recValid = s.recValid
      ∧ s.failAttempt.ign = s.ign ∧ s.sameOwn s.failAttempt := by simp [State.sameOwn]
  rcases s.failAttempt_cases with ⟨hlt, ht⟩ | ⟨hlast, ht⟩
  · refine ⟨fun _ => ?_, fun hge => absurd hlt (Nat.not_lt.2 hge), hframe⟩
    rw [ht]
    exact ⟨rfl, attempt_succ_toNat s hv hlt, rfl, rfl⟩
  · refine ⟨fun hlt => absurd hlt (Nat.not_lt.2 hlast), fun _ => ?_, hframe⟩
    rw [ht]
    exact ⟨rfl, rfl, rfl, rfl⟩

/-- TIMEOUT in an attempt (R109). -/
theorem exec_timeout_of_waiting (s : State) (hw : s.phase.waiting = true) : exec .timeout s = .next s.failAttempt := by
  simp [exec, execTimeout, hw]

/-- A chunk that would overflow the buffer (R108, D6). -/
theorem exec_chunk_of_overflow (d : List Byte) (s : State) (hw : s.phase.waiting = true)
    (hover : s.cfg.frameBufBytes < s.bufLen + d.length) : exec (.chunk d) s = .next s.failAttempt := by
  simp [exec, execChunk, hw, hover]

/-- Settles O17: TIMEOUT is FailAttempt in an attempt, and an ignored event elsewhere. -/
theorem timeoutFailsTheAttemptOrIsIgnored : Obligations.TimeoutFailsTheAttemptOrIsIgnored := by
  unfold Obligations.TimeoutFailsTheAttemptOrIsIgnored
  intro s data hv
  refine ⟨rfl, fun hp => ?_, fun hp => ?_⟩
  · exact ⟨_, exec_timeout_of_waiting s ((Phase.waiting_iff _).2 hp), attemptFailed_failAttempt s hv,
      State.sameBuf_of_buf_eq s.failAttempt_buf⟩
  · exact exec_of_ignoredIn .timeout s (.inr (.inl ⟨.inr rfl, (Phase.not_waiting_iff _).2 hp⟩))

/-- Settles O18: the overflow is found before anything is stored. -/
theorem overflowingChunkStoresNothing : Obligations.OverflowingChunkStoresNothing := by
  unfold Obligations.OverflowingChunkStoresNothing
  intro s data hv hp hover
  exact ⟨_, exec_chunk_of_overflow data s ((Phase.waiting_iff _).2 hp) hover, attemptFailed_failAttempt s hv,
    State.sameBuf_of_buf_eq s.failAttempt_buf⟩

/-! ### Chunks that are stored -/

theorem chunkStored_of_buf_eq {s t : State} {d : List Byte} (hwf : s.buf.wf)
    (h : t.buf = s.buf.writeBytes s.bufLen d) : ChunkStored d s t := fun a => by
  rw [h, Memory.read_writeBytes d s.buf hwf]

/-- Settles O19: the first chunk is stored and the second awaited. -/
theorem firstChunkIsStored : Obligations.FirstChunkIsStored := by
  unfold Obligations.FirstChunkIsStored
  intro s data hwf hp hfit
  exact ⟨_, exec_chunk_of_wait0 data s hp hfit, rfl, rfl, chunkStored_of_buf_eq hwf rfl,
    s.frame_storeChunk hwf data, rfl, rfl, rfl, rfl, rfl, rfl, rfl, rfl, rfl, rfl, rfl⟩

theorem termOk_iff (f : List Byte) : termOk f = true ↔ f.getLast? = some 0x77#8 := decide_eq_true_iff

/-- The tests of R131 to R133 on a string. -/
theorem validFrame_iff (f : List Byte) :
    validFrame f = true ↔ 25 ≤ f.length ∧ (f[0]? = some 0xDD#8 ∧ f[1]? = some 0x03#8) ∧ f.getLast? = some 0x77#8 := by
  simp only [validFrame, markerOk, Bool.and_eq_true, decide_eq_true_eq, termOk_iff, and_assoc]
  rfl

/-- `DecodeFn` accepts exactly the strings that pass the three tests (R130, R135). -/
theorem decodeFn_eq (f : List Byte) : decodeFn f = if validFrame f then .ok (extract f) else .malformedFrame := by
  by_cases hlen : f.length < minFrameLen
  · simp [decodeFn, validFrame, hlen]
  · cases hm : markerOk f <;> cases ht : termOk f <;> simp [decodeFn, validFrame, hlen, hm, ht, Nat.not_lt.1 hlen]

theorem State.complete_of_validFrame (s : State) (h : validFrame s.frame = true) :
    s.complete
      = { s with bufLen := 0, regs := extract s.frame, recValid := true, err := .none, phase := .doneOk } := by
  have hd : decodeFn s.frame = .ok (extract s.frame) := by rw [decodeFn_eq, if_pos h]
  simp [State.complete, hd]

theorem State.complete_of_not_validFrame (s : State) (h : ¬ validFrame s.frame = true) :
    s.complete = State.raise { s with bufLen := 0 } .malformedFrame := by
  have hd : decodeFn s.frame = .malformedFrame := by rw [decodeFn_eq, if_neg h]
  simp [State.complete, hd]

/-- A second chunk that completes a frame (R104, R108). -/
theorem exec_chunk_of_termOk (d : List Byte) (s : State) (hwf : s.buf.wf) (hp : s.phase = .wait1)
    (hfit : s.bufLen + d.length ≤ s.cfg.frameBufBytes) (hterm : termOk (s.frame ++ d) = true) :
    exec (.chunk d) s = .next (s.storeChunk d).complete := by
  rw [exec_chunk_of_wait1 d s hp hfit, judgeFrame, s.frame_storeChunk hwf, if_pos hterm]

/-- A second chunk after which the terminator is missing (R103, R108). -/
theorem exec_chunk_of_not_termOk (d : List Byte) (s : State) (hwf : s.buf.wf) (hp : s.phase = .wait1)
    (hfit : s.bufLen + d.length ≤ s.cfg.frameBufBytes) (hterm : ¬ termOk (s.frame ++ d) = true) :
    exec (.chunk d) s = .next (s.storeChunk d).failAttempt := by
  rw [exec_chunk_of_wait1 d s hp hfit, judgeFrame, s.frame_storeChunk hwf, if_neg hterm]

/-- Settles O20: the attempt fails from the state with the chunk stored, which differs only in `BUF` and `BUF_LEN`. -/
theorem secondChunkWithoutTerminatorFails : Obligations.SecondChunkWithoutTerminatorFails := by
  unfold Obligations.SecondChunkWithoutTerminatorFails
  intro s data hv hwf hp hfit hlast
  have hexec := exec_chunk_of_not_termOk data s hwf hp hfit (mt (termOk_iff _).1 hlast)
  exact ⟨_, hexec, attemptFailed_failAttempt (s.storeChunk data) hv,
    chunkStored_of_buf_eq hwf (s.storeChunk data).failAttempt_buf⟩

/-- Settles O21: the concatenation passes the validator, and its record is latched. -/
theorem secondChunkDecodesTheFrame : Obligations.SecondChunkDecodesTheFrame := by
  unfold Obligations.SecondChunkDecodesTheFrame
  intro s data hwf hp hfit hlen h0 h1 hlast
  have hframe := s.frame_storeChunk hwf data
  have hvalid : validFrame (s.storeChunk data).frame = true := by
    rw [hframe]
    exact (validFrame_iff _).2 ⟨hlen, ⟨h0, h1⟩, hlast⟩
  have hexec := exec_chunk_of_termOk data s hwf hp hfit ((termOk_iff _).2 hlast)
  rw [State.complete_of_validFrame _ hvalid, hframe] at hexec
  exact ⟨_, hexec, rfl, rfl, rfl, extract_isRecordOf _, rfl, chunkStored_of_buf_eq hwf rfl, rfl, rfl, rfl, rfl, rfl,
    rfl, rfl, rfl⟩

/-- Settles O22: the concatenation ends in `TERM_BYTE` and fails the validator. -/
theorem malformedFrameIsFinal : Obligations.MalformedFrameIsFinal := by
  unfold Obligations.MalformedFrameIsFinal
  intro s data hwf hp hfit hlast hbad
  have hinvalid : ¬ validFrame (s.storeChunk data).frame = true := by
    rw [s.frame_storeChunk hwf, validFrame_iff]
    rintro ⟨hlen, ⟨h0, h1⟩, -⟩
    rcases hbad with hshort | hne | hne
    · exact absurd hlen (Nat.not_le.2 hshort)
    · exact hne h0
    · exact hne h1
  have hexec := exec_chunk_of_termOk data s hwf hp hfit ((termOk_iff _).2 hlast)
  rw [State.complete_of_not_validFrame _ hinvalid] at hexec
  exact ⟨_, hexec, rfl, rfl, rfl, rfl, rfl, rfl, rfl, chunkStored_of_buf_eq hwf rfl, rfl, rfl, rfl, rfl, rfl, rfl⟩

/-! ### The sequencer as a whole -/

theorem State.failAttempt_phase (s : State) : s.failAttempt.phase = .wait0 ∨ s.failAttempt.phase = .doneFail := by
  rcases s.failAttempt_cases with ⟨-, ht⟩ | ⟨-, ht⟩
  · exact .inl (by rw [ht]; rfl)
  · exact .inr (by rw [ht]; rfl)

/-- The phases after a second chunk (R101). -/
theorem judgeFrame_phase (s : State) :
    (judgeFrame s).phase = .doneOk ∨ (judgeFrame s).phase = .wait0 ∨ (judgeFrame s).phase = .doneFail := by
  rcases judgeFrame_cases s with ⟨-, ht⟩ | ⟨-, ht⟩
  · rw [ht]
    exact (s.complete.done_iff.1 s.complete_done).imp_right .inr
  · rw [ht]
    exact .inr s.failAttempt_phase

/-- Settles O24: of all that an operation can do, each change of the phase is a cell of the table. -/
theorem phaseMovesOnlyAlongTheTable : Obligations.PhaseMovesOnlyAlongTheTable := by
  unfold Obligations.PhaseMovesOnlyAlongTheTable
  intro i s t he hne
  rcases exec_cases i s t he with ⟨-, rfl⟩ | ⟨hi, hw, rfl⟩ | ⟨rfl, hw, rfl⟩ | ⟨d, rfl, hw, -, rfl⟩ |
    ⟨d, hi, hp, -, rfl⟩ | ⟨d, rfl, hp, -, rfl⟩ | ⟨hi, rfl⟩ | ⟨-, rfl⟩ | ⟨-, -, -, -, d, m, r, rfl⟩
  · exact absurd rfl hne
  · exact .inr (.inl ⟨hi, hw, rfl⟩)
  · exact .inr (.inr (.inl ⟨rfl, hw, s.failAttempt_phase⟩))
  · exact .inr (.inr (.inl ⟨rfl, hw, s.failAttempt_phase⟩))
  · exact .inr (.inr (.inr (.inl ⟨⟨d, hi⟩, hp, rfl⟩)))
  · rcases judgeFrame_phase (s.storeChunk d) with hok | hfail
    · exact .inr (.inr (.inr (.inr ⟨⟨d, rfl⟩, hp, hok⟩)))
    · exact .inr (.inr (.inl ⟨rfl, (Phase.waiting_iff _).2 (.inr hp), hfail⟩))
  · exact .inl ⟨hi, rfl⟩
  · exact absurd rfl hne
  · exact absurd rfl hne

/-- `NoResponse` is new after FailAttempt only where the budget is used up (R103). -/
theorem State.failAttempt_noResponse (s : State) (h : s.failAttempt.err = .noResponse) (hs : s.err ≠ .noResponse) :
    s.cfg.maxAttempts ≤ s.attempt.toNat := by
  rcases s.failAttempt_cases with ⟨-, ht⟩ | ⟨hlast, -⟩
  · rw [ht] at h
    exact absurd h hs
  · exact hlast

/-- Complete never raises `NoResponse` (R104). -/
theorem State.complete_err_ne_noResponse (s : State) : s.complete.err ≠ .noResponse := by
  rcases s.complete_cases with ⟨r, -, ht⟩ | ⟨-, ht⟩ <;> rw [ht] <;> nofun

theorem judgeFrame_noResponse (s : State) (h : (judgeFrame s).err = .noResponse) (hs : s.err ≠ .noResponse) :
    termOk s.frame = false ∧ s.cfg.maxAttempts ≤ s.attempt.toNat := by
  rcases judgeFrame_cases s with ⟨-, ht⟩ | ⟨hterm, ht⟩ <;> rw [ht] at h
  · exact absurd h s.complete_err_ne_noResponse
  · exact ⟨hterm, s.failAttempt_noResponse h hs⟩

/-- An operation that newly gives `NoResponse` is FailAttempt with no attempt left, for one of three causes (R211). -/
theorem exec_noResponse (i : Instr) (s t : State) (hwf : s.buf.wf) (he : exec i s = .next t)
    (ht : t.err = .noResponse) (hs : s.err ≠ .noResponse) :
    s.cfg.maxAttempts ≤ s.attempt.toNat ∧ s.phase.waiting = true
    ∧ (i = .timeout
      ∨ ∃ d, i = .chunk d ∧ (s.cfg.frameBufBytes < s.bufLen + d.length
          ∨ (s.phase = .wait1 ∧ termOk (s.frame ++ d) = false))) := by
  rcases exec_cases i s t he with ⟨-, rfl⟩ | ⟨-, -, rfl⟩ | ⟨hi, hw, rfl⟩ | ⟨d, hi, hw, hover, rfl⟩ | ⟨d, -, -, -, rfl⟩ |
    ⟨d, hi, hp, -, rfl⟩ | ⟨-, rfl⟩ | ⟨-, rfl⟩ | ⟨-, -, -, -, d, m, r, rfl⟩
  · exact absurd ht hs
  · cases ht
  · exact ⟨s.failAttempt_noResponse ht hs, hw, .inl hi⟩
  · exact ⟨s.failAttempt_noResponse ht hs, hw, .inr ⟨d, hi, .inl hover⟩⟩
  · exact absurd ht hs
  · obtain ⟨hterm, hlast⟩ := judgeFrame_noResponse (s.storeChunk d) ht hs
    rw [s.frame_storeChunk hwf] at hterm
    exact ⟨hlast, (Phase.waiting_iff _).2 (.inr hp), .inr ⟨d, hi, .inr ⟨hp, hterm⟩⟩⟩
  · cases ht
  · exact absurd ht hs
  · exact absurd ht hs

/-- Settles O31: the attempt that failed was the last, and R35 bounds the attempts. -/
theorem noResponseMeansTheLastAttemptFailed : Obligations.NoResponseMeansTheLastAttemptFailed := by
  unfold Obligations.NoResponseMeansTheLastAttemptFailed
  intro i s t h he ht hs
  obtain ⟨-, hseq, ⟨hwf, -, -⟩, -⟩ := h
  obtain ⟨hlast, hw, hcause⟩ := exec_noResponse i s t hwf he ht hs
  obtain ⟨-, ⟨-, hle⟩, -⟩ := (s.sequencerInv_iff_of_waiting hw).1 hseq
  simp only [← Bool.not_eq_true, termOk_iff] at hcause
  exact ⟨Nat.le_antisymm hle hlast, hw, hcause⟩

/-! ### The host's output -/

/-- Every label code has its string (R170, R174). -/
theorem label_of_isLabelCode (w : Half) (c : BitVec 4) (h : IsLabelCode w c) : ∃ l, label c = some l := by
  have htable : ∀ c : BitVec 4, c = 0xF#4 ∨ c.toNat ≤ 12 → (label c).isSome = true := by decide
  refine Option.isSome_iff_exists.1 (htable c ?_)
  rcases h with ⟨hok, -⟩ | ⟨n, hn, hc, -⟩
  · exact .inl hok
  · exact .inr (hc ▸ hn)

theorem State.hostOutput_of_doneOk (s : State) (h : s.Inv) (hp : s.phase = .doneOk) :
    s.hostOutput = successObject s.regs := by
  rw [s.hostOutput_eq, if_pos ((recordIsUsableExactlyInDoneOk s h).2 hp)]

theorem State.hostOutput_of_not_doneOk (s : State) (h : s.Inv) (hp : s.phase ≠ .doneOk) : s.hostOutput = .empty := by
  rw [s.hostOutput_eq, if_neg (mt (recordIsUsableExactlyInDoneOk s h).1 hp)]

/-- What a poll has to output where its block stands (R114, R192, R243 step 5). -/
def PollState.outputOfBlock (p : PollState) : Option HostObject :=
  if p.block.done then some p.block.hostOutput else none

theorem PollState.emitObject_output (status : Half) (p : PollState) (hdone : p.block.done = true)
    (hobj : hostObject status p.words = p.block.hostOutput) :
    (p.emitObject status).output = (p.emitObject status).outputOfBlock :=
  (congrArg some hobj).trans (if_pos hdone).symm

/-- The end of a poll that has read and output nothing yet: the reads change only the data lines of the block, and the
words not read are not used. -/
theorem PollState.finish_output (p : PollState) (hwords : p.words = []) (hout : p.output = none) :
    ∃ q, p.finish = .next q ∧ q.output = q.outputOfBlock := by
  unfold PollState.finish
  split
  case isFalse hdone => exact ⟨p, rfl, by rw [hout, PollState.outputOfBlock, if_neg hdone]⟩
  case isTrue hdone =>
    rw [PollState.present_read, andThen_next]
    split
    case isTrue huse =>
      obtain ⟨q, d, hq, hread, hblock, -⟩ := PollState.readWords_next recordIndexes _
      rw [hq, andThen_next]
      refine ⟨_, rfl, q.emitObject_output _ (by rw [hblock]; exact hdone) ?_⟩
      rw [hread, hblock, hwords]
      rfl
    case isFalse huse =>
      exact ⟨_, rfl, PollState.emitObject_output _ _ hdone ((if_neg huse).trans (if_neg huse).symm)⟩

/-- A poll completes with what there is to output. -/
theorem poll_output (connected : Bool) (ds : List Delivery) (s : State) :
    ∃ p, poll connected ds s = .next p ∧ p.output = if connected then p.outputOfBlock else some .empty := by
  unfold poll
  obtain ⟨t, ht⟩ := exec_completes_of_blockStep .reset s rfl
  rw [PollState.present_next .reset _ t ht, andThen_next]
  cases connected with
  | false => exact ⟨_, rfl, rfl⟩
  | true =>
    obtain ⟨u, hu⟩ := exec_completes_of_blockStep .start t rfl
    rw [if_pos rfl, PollState.present_next .start _ u hu, andThen_next]
    obtain ⟨q, hq, hwords, hout⟩ := PollState.deliver_next ds _
    rw [hq, andThen_next]
    exact q.finish_output hwords hout

/-- Settles O60: the record is usable exactly in `DONE_OK`, its label code has a string, and a poll ends with the output
of its block. -/
theorem hostOutputOfACycle : Obligations.HostOutputOfACycle := by
  unfold Obligations.HostOutputOfACycle
  intro s h
  refine ⟨s.hostOutput_of_not_doneOk h, fun hp => ?_, fun connected ds => poll_output connected ds s⟩
  have hout := s.hostOutput_of_doneOk h hp
  obtain ⟨-, -, -, hlabel⟩ := h
  obtain ⟨l, hl⟩ := label_of_isLabelCode s.regs.prot s.regs.pcode (hlabel ▸ prio_isLabelCode s.regs.prot)
  refine ⟨l, hl, ?_⟩
  rw [hout, successObject, labelText, hl]
  rfl

end Sys2Proof.Machine
end

section
/-! The obligations of 41_validator.md: the tests of R131 to R133 and what fails them (R137, R139), the conversion
primitives as reads of the buffer (R150), and the record that the unit operations build (R136, R177). -/

namespace Sys2Proof.Machine

/-! ### Rejected frames -/

theorem termOk_iff_getElem? (f : List Byte) : termOk f = true ↔ f[f.length - 1]? = some 0x77#8 := by
  rw [termOk_iff, List.getLast?_eq_getElem?]

theorem decodeFn_malformedFrame_iff (f : List Byte) : decodeFn f = .malformedFrame ↔ ¬ validFrame f = true := by
  rw [decodeFn_eq]
  split <;> simp_all

/-- The tests that a string may fail (R131 to R133). -/
theorem not_validFrame_iff (f : List Byte) :
    ¬ validFrame f = true
      ↔ f.length < 25 ∨ f[0]? ≠ some 0xDD#8 ∨ f[1]? ≠ some 0x03#8 ∨ ¬ termOk f = true := by
  rw [validFrame_iff, termOk_iff, not_and_or, not_and_or, not_and_or, Nat.not_le, or_assoc]

/-- Settles O38: `DecodeFn` rejects what fails one of the three tests, and the last byte is that at index L - 1. -/
theorem decodeFnRejectsExactlyMalformedFrames : Obligations.DecodeFnRejectsExactlyMalformedFrames := by
  unfold Obligations.DecodeFnRejectsExactlyMalformedFrames
  intro f
  rw [decodeFn_malformedFrame_iff, not_validFrame_iff, termOk_iff_getElem?]

theorem State.failAttempt_err_ne_malformedFrame (s : State) (hs : s.err ≠ .malformedFrame) :
    s.failAttempt.err ≠ .malformedFrame := by
  rcases s.failAttempt_cases with ⟨-, ht⟩ | ⟨-, ht⟩ <;> rw [ht]
  · exact hs
  · nofun

/-- Complete raises `MalformedFrame` where `DecodeFn` gives it (R104). -/
theorem State.complete_malformedFrame (s : State) (h : s.complete.err = .malformedFrame) :
    ¬ validFrame s.frame = true := by
  rcases s.complete_cases with ⟨r, -, ht⟩ | ⟨hd, -⟩
  · rw [ht] at h
    cases h
  · exact (decodeFn_malformedFrame_iff _).1 hd

theorem judgeFrame_malformedFrame (s : State) (h : (judgeFrame s).err = .malformedFrame)
    (hs : s.err ≠ .malformedFrame) : termOk s.frame = true ∧ ¬ validFrame s.frame = true := by
  rcases judgeFrame_cases s with ⟨hterm, ht⟩ | ⟨-, ht⟩ <;> rw [ht] at h
  · exact ⟨hterm, s.complete_malformedFrame h⟩
  · exact absurd h (s.failAttempt_err_ne_malformedFrame hs)

/-- Of all that an operation can do, judging the frame after a second chunk alone raises `MalformedFrame` (R213). -/
theorem exec_malformedFrame (i : Instr) (s t : State) (hwf : s.buf.wf) (he : exec i s = .next t)
    (ht : t.err = .malformedFrame) (hs : s.err ≠ .malformedFrame) :
    ∃ d, i = .chunk d ∧ s.phase = .wait1 ∧ termOk (s.frame ++ d) = true ∧ ¬ validFrame (s.frame ++ d) = true := by
  rcases exec_cases i s t he with ⟨-, rfl⟩ | ⟨-, -, rfl⟩ | ⟨-, -, rfl⟩ | ⟨d, -, -, -, rfl⟩ | ⟨d, -, -, -, rfl⟩ |
    ⟨d, hi, hp, -, rfl⟩ | ⟨-, rfl⟩ | ⟨-, rfl⟩ | ⟨-, -, -, -, d, m, r, rfl⟩
  · exact absurd ht hs
  · cases ht
  · exact absurd ht (s.failAttempt_err_ne_malformedFrame hs)
  · exact absurd ht (s.failAttempt_err_ne_malformedFrame hs)
  · exact absurd ht hs
  · have hjudged := judgeFrame_malformedFrame (s.storeChunk d) ht hs
    rw [s.frame_storeChunk hwf] at hjudged
    exact ⟨d, hi, hp, hjudged⟩
  · cases ht
  · exact absurd ht hs
  · exact absurd ht hs

/-- Settles O32: the rejected frame passed the terminator test before `DecodeFn` saw it, so it failed another. -/
theorem malformedFrameMeansShortOrBadMarker : Obligations.MalformedFrameMeansShortOrBadMarker := by
  unfold Obligations.MalformedFrameMeansShortOrBadMarker
  intro i s t hwf he ht hs
  obtain ⟨d, hi, hp, hterm, hinvalid⟩ := exec_malformedFrame i s t hwf he ht hs
  refine ⟨d, hi, hp, (termOk_iff _).1 hterm, ?_⟩
  rcases (not_validFrame_iff _).1 hinvalid with hshort | hfirst | hsecond | hlast
  · exact .inl hshort
  · exact .inr (.inl hfirst)
  · exact .inr (.inr hsecond)
  · exact absurd hterm hlast

/-! ### The conversion primitives -/

theorem State.frame_byteAt (s : State) (a : Nat) (h : a < s.bufLen) : byteAt s.frame a = s.buf.read a := by
  rw [byteAt, List.getD_eq_getElem?_getD, s.frame_getElem?, if_pos h]
  rfl

/-- Settles O42: `MemRead` of one and two bytes, and the frame's bytes are those of `BUF`. -/
theorem extractorsReadTheBuffer : Obligations.ExtractorsReadTheBuffer := by
  unfold Obligations.ExtractorsReadTheBuffer
  intro s o
  refine ⟨fun h => ?_, fun h => ?_⟩
  · have hword : (fieldU16 s.frame o).toNat
        = 256 * (byteAt s.frame (4 + o)).toNat + (byteAt s.frame (4 + o + 1)).toNat := fieldU16_toNat s.frame o
    rw [s.memRead_two _ h, hword, s.frame_byteAt _ (by omega), s.frame_byteAt _ (by omega), Nat.mul_comm]
  · have hbyte : fieldU8 s.frame o = s.buf.read (4 + o) := s.frame_byteAt (4 + o) h
    rw [s.memRead_one _ h, hbyte]

/-! ### The frame tests as operations -/

theorem exec_startMarker (f : List Byte) (s : State) :
    exec (.startMarker f) s = .next (s.latchMatch (markerOk f)) := rfl

theorem exec_term (f : List Byte) (s : State) : exec (.term f) s = .next (s.latchMatch (termOk f)) := rfl

theorem markerOk_eq (f : List Byte) : markerOk f = decide (f[0]? = some 0xDD#8 ∧ f[1]? = some 0x03#8) :=
  (Bool.decide_and _ _).symm

/-- The terminator test with the bound of its index, which the empty string fails (R133). -/
theorem termOk_eq (f : List Byte) : termOk f = decide (0 < f.length ∧ f[f.length - 1]? = some 0x77#8) := by
  rw [Bool.eq_iff_iff, termOk_iff_getElem?, decide_eq_true_iff]
  refine ⟨fun h => ⟨?_, h⟩, fun ⟨_, h⟩ => h⟩
  obtain ⟨hlt, -⟩ := List.getElem?_eq_some_iff.1 h
  omega

/-- Settles O47: each test latches its predicate. -/
theorem frameTestsComplete : Obligations.FrameTestsComplete := by
  unfold Obligations.FrameTestsComplete
  intro f s
  rw [exec_startMarker, exec_term, markerOk_eq, termOk_eq]
  exact ⟨rfl, rfl⟩

/-! ### The protection row of a word -/

/-- A word has one label code (R170). -/
theorem IsLabelCode.unique {w : Half} {c d : BitVec 4} (hc : IsLabelCode w c) (hd : IsLabelCode w d) : c = d := by
  rcases hc with ⟨rfl, hnone⟩ | ⟨n, hn, hcn, hset, hmax⟩ <;>
    rcases hd with ⟨rfl, hnone'⟩ | ⟨n', hn', hdn, hset', hmax'⟩
  · rfl
  · simp [hnone n' hn'] at hset'
  · simp [hnone' n hn] at hset
  · rcases Nat.lt_trichotomy n n' with hlt | rfl | hgt
    · simp [hmax n' hlt hn'] at hset'
    · exact BitVec.eq_of_toNat_eq (hcn.trans hdn.symm)
    · simp [hmax' n hgt hn] at hset

theorem ProtRow.applies_iff (r : ProtRow) (w : Half) :
    r.applies w = true ↔ ∀ i, i < 16 → (w.getLsbD i && r.mask.getLsbD i) = r.pattern.getLsbD i := by
  rw [ProtRow.applies, decide_eq_true_iff, BitVec.eq_of_getLsbD_eq_iff]
  simp only [BitVec.getLsbD_and]

/-- The row of "ok" looks at the bits 0 to 12 and asks that they be 0 (R172, R177). -/
theorem rowOk_bits : ∀ i, i < 16 →
    rowOk.mask.getLsbD i = decide (i ≤ 12) ∧ rowOk.pattern.getLsbD i = false := by decide

/-- The row of bit n looks at the bits n to 12 and asks that bit n alone of them be 1 (R177). -/
theorem bitRow_bits : ∀ r ∈ protRows, r ≠ rowOk → r.code.toNat ≤ 12 ∧ ∀ i, i < 16 →
    r.mask.getLsbD i = decide (r.code.toNat ≤ i ∧ i ≤ 12) ∧ r.pattern.getLsbD i = decide (i = r.code.toNat) := by
  decide

theorem rowOk_applies_iff (w : Half) : rowOk.applies w = true ↔ ∀ n, n ≤ 12 → w.getLsbD n = false := by
  rw [ProtRow.applies_iff]
  constructor
  · intro h n hn
    have hbit := h n (by omega)
    simpa [rowOk_bits n (by omega), hn] using hbit
  · intro h i hi
    obtain ⟨hmask, hpattern⟩ := rowOk_bits i hi
    rw [hmask, hpattern]
    by_cases hle : i ≤ 12
    · simp [h i hle]
    · simp [hle]

theorem bitRow_applies_iff (r : ProtRow) (hr : r ∈ protRows) (hne : r ≠ rowOk) (w : Half) :
    r.applies w = true ↔
      w.getLsbD r.code.toNat = true ∧ ∀ m, r.code.toNat < m → m ≤ 12 → w.getLsbD m = false := by
  obtain ⟨hle, hbits⟩ := bitRow_bits r hr hne
  rw [ProtRow.applies_iff]
  constructor
  · intro h
    refine ⟨?_, fun m hlo hhi => ?_⟩
    · have hbit := h r.code.toNat (by omega)
      simpa [hbits r.code.toNat (by omega), hle] using hbit
    · have hbit := h m (by omega)
      simpa [hbits m (by omega), hhi, Nat.le_of_lt hlo, Nat.ne_of_gt hlo] using hbit
  · rintro ⟨hset, hmax⟩ i hi
    obtain ⟨hmask, hpattern⟩ := hbits i hi
    rw [hmask, hpattern]
    rcases Nat.lt_trichotomy i r.code.toNat with hlt | heq | hgt
    · simp [Nat.not_le.2 hlt, Nat.ne_of_lt hlt]
    · simp [heq, hset, hle]
    · by_cases hhi : i ≤ 12
      · simp [hmax i hgt hhi, Nat.ne_of_gt hgt]
      · simp [hhi, Nat.ne_of_gt hgt]

/-- A row applies to the words of which its code is the label code (R170, R177). -/
theorem protRow_applies_iff (r : ProtRow) (hr : r ∈ protRows) (w : Half) :
    r.applies w = true ↔ IsLabelCode w r.code := by
  by_cases hok : r = rowOk
  · subst hok
    rw [rowOk_applies_iff]
    refine ⟨fun h => .inl ⟨rfl, h⟩, ?_⟩
    rintro (⟨-, h⟩ | ⟨n, hn, hcode, -⟩)
    · exact h
    · have hcode' : rowOk.code.toNat = 15 := rfl
      omega
  · obtain ⟨hle, -⟩ := bitRow_bits r hr hok
    rw [bitRow_applies_iff r hr hok]
    refine ⟨fun ⟨hset, hmax⟩ => .inr ⟨_, hle, rfl, hset, hmax⟩, ?_⟩
    rintro (⟨hcode, -⟩ | ⟨n, -, rfl, hset, hmax⟩)
    · rw [hcode] at hle
      exact absurd hle (by decide)
    · exact ⟨hset, hmax⟩

/-- The table has a row for each label code. -/
theorem protRow_of_isLabelCode (w : Half) (c : BitVec 4) (h : IsLabelCode w c) : ∃ r ∈ protRows, r.code = c := by
  have htable : ∀ c : BitVec 4, c = 0xF#4 ∨ c.toNat ≤ 12 → ∃ r ∈ protRows, r.code = c := by decide
  refine htable c ?_
  rcases h with ⟨hok, -⟩ | ⟨n, hn, hc, -⟩
  · exact .inl hok
  · exact .inr (hc ▸ hn)

/-- The decoder's table is made of the 14 rows. -/
theorem protTable_rows : protTable.map Prod.fst = protRows := rfl

/-- An operation of the protection table is the application of its row (R177). -/
theorem exec_of_mem_protTable (w : Half) (s : State) : ∀ e ∈ protTable, exec (e.2 w) s = applyRow e.1 w s := by
  unfold protTable
  iterate 14 refine List.forall_mem_cons.2 ⟨rfl, ?_⟩
  exact nofun

theorem applyRow_of_applies (row : ProtRow) (w : Half) (s : State) (h : row.applies w = true) :
    applyRow row w s = .next (s.latchField fun r => { r with pcode := row.code }) := by
  rw [applyRow, if_pos h]

/-- Some row applies to each word: that of its label code. -/
theorem decodeProt_completes (w : Half) : ∃ i, decodeProt w = .ok i := by
  obtain ⟨r, hr, hcode⟩ := protRow_of_isLabelCode w (prio w) (prio_isLabelCode w)
  have happlies : r.applies w = true := (protRow_applies_iff r hr w).2 (hcode ▸ prio_isLabelCode w)
  rw [← protTable_rows] at hr
  obtain ⟨e, he, rfl⟩ := List.mem_map.1 hr
  have hfound : (protTable.find? fun e => e.1.applies w).isSome = true := List.find?_isSome.2 ⟨e, he, happlies⟩
  obtain ⟨e', he'⟩ := Option.isSome_iff_exists.1 hfound
  exact ⟨e'.2 w, by rw [decodeProt, he']⟩

/-- The operation that a protection word decodes to latches the label code of the word (R170, R177). -/
theorem exec_of_decodeProt (w : Half) (i : Instr) (h : decodeProt w = .ok i) (s : State) :
    exec i s = .next (s.latchField fun r => { r with pcode := prio w }) := by
  obtain ⟨e, he, happlies, rfl⟩ := decodeProt_ok w i h
  have hr : e.1 ∈ protRows := protTable_rows ▸ List.mem_map_of_mem he
  have hcode : e.1.code = prio w :=
    ((protRow_applies_iff e.1 hr w).1 happlies).unique (prio_isLabelCode w)
  rw [exec_of_mem_protTable w s e he, applyRow_of_applies e.1 w s happlies, hcode]

/-! ### The unit operations one after the other -/

theorem execAll_cons_of_next {i : Instr} {is : List Instr} {s t : State} (h : exec i s = .next t) :
    execAll (i :: is) s = execAll is t := by
  rw [execAll, h]

/-- The two tests and the seven extractors on a frame that passed the validator leave the record of `Extract` but for
the label code (R136). -/
theorem execAll_tests_and_extractors (f : List Byte) (s : State) (is : List Instr) (h : validFrame f = true) :
    execAll (.startMarker f :: .term f :: .extVmain f :: .extImain f :: .extRemcap f :: .extNomcap f :: .extNcyc f ::
        .extProt f :: .extSoc f :: is) s
      = execAll is { s with matched := true, unitRec := { extract f with pcode := s.unitRec.pcode } } := by
  obtain ⟨hlen, -, hlast⟩ := (validFrame_iff f).1 h
  have hext : ∀ o n set t, hdrLen + o + n ≤ 25 → extractTo f o n set t = .next (t.latchField set) :=
    fun o n set t hle => extractTo_complete f o n set t (Nat.le_trans hle hlen)
  rw [execAll_cons_of_next (exec_startMarker f s), execAll_cons_of_next (exec_term f _), (termOk_iff f).2 hlast,
    execAll_cons_of_next (i := .extVmain f) (hext 0 2 _ _ (by decide)),
    execAll_cons_of_next (i := .extImain f) (hext 2 2 _ _ (by decide)),
    execAll_cons_of_next (i := .extRemcap f) (hext 4 2 _ _ (by decide)),
    execAll_cons_of_next (i := .extNomcap f) (hext 6 2 _ _ (by decide)),
    execAll_cons_of_next (i := .extNcyc f) (hext 8 2 _ _ (by decide)),
    execAll_cons_of_next (i := .extProt f) (hext 16 2 _ _ (by decide)),
    execAll_cons_of_next (i := .extSoc f) (hext 19 1 _ _ (by decide))]
  simp only [State.latchMatch, State.latchField]
  rfl

/-- Settles O49: the row of the protection word adds the label code, the one field that the other operations leave. -/
theorem unitOperationsBuildTheRecord : Obligations.UnitOperationsBuildTheRecord := by
  unfold Obligations.UnitOperationsBuildTheRecord
  intro f s h
  obtain ⟨row, hrow⟩ := decodeProt_completes (fieldU16 f 16)
  refine ⟨row, _, extract f, hrow, ?_, by rw [decodeFn_eq, if_pos h], rfl⟩
  rw [execAll_tests_and_extractors f s [row] h, execAll_cons_of_next (exec_of_decodeProt _ row hrow _)]
  rfl

end Sys2Proof.Machine
end

section
/-! The obligation of 42_extractor.md: what each extractor writes (R153 to R159). -/

namespace Sys2Proof.Machine

/-- A 16-bit field as the pattern of the big-endian word at its frame index (R134, R150). -/
theorem fieldU16_eq_ofNat (f : List Byte) (o : Nat) : fieldU16 f o = BitVec.ofNat 16 (beWordAt f (4 + o)) := by
  rw [← fieldU16_toNat, BitVec.ofNat_toNat, BitVec.setWidth_eq]

/-- An extractor of a 16-bit field completes on a string that holds its two bytes, and gives their word to the field
that `set` writes. -/
theorem extractTo_word (f : List Byte) (o : Nat) (set : Half → Record → Record) (s : State)
    (h : hdrLen + o + 2 ≤ f.length) :
    extractTo f o 2 (set (fieldU16 f o)) s = .next (s.latchField (set (BitVec.ofNat 16 (beWordAt f (4 + o))))) := by
  rw [extractTo_complete f o 2 _ s h, fieldU16_eq_ofNat]

/-- Settles O45: six extractors take the word at `HDR_LEN` + their payload offset, and EXT_SOC the byte there. -/
theorem extractorsCompleteOnTheirBytes : Obligations.ExtractorsCompleteOnTheirBytes := by
  unfold Obligations.ExtractorsCompleteOnTheirBytes
  intro f s
  exact ⟨extractTo_word f 0 (fun v r => { r with vmain := v }) s,
    extractTo_word f 2 (fun v r => { r with imain := v }) s,
    extractTo_word f 4 (fun v r => { r with remcap := v }) s,
    extractTo_word f 6 (fun v r => { r with nomcap := v }) s,
    extractTo_word f 8 (fun v r => { r with ncyc := v }) s,
    extractTo_word f 16 (fun v r => { r with prot := v }) s,
    extractTo_complete f 19 1 _ s⟩

end Sys2Proof.Machine
end

section
/-! The obligations of 43_protection.md: the label code of a word (R170 to R172), the rows that give it (R177), on their
own and as operations, and the binary rendering (R175). -/

namespace Sys2Proof.Machine

/-! ### The label code -/

/-- Settles O50: the search from bit 12 downwards stops at the highest set bit. -/
theorem prioIsTheHighestSetBit : Obligations.PrioIsTheHighestSetBit := prio_isLabelCode

theorem isLabelCode_iff (w : Half) (c : BitVec 4) : IsLabelCode w c ↔ c = prio w :=
  ⟨fun h => h.unique (prio_isLabelCode w), fun h => h ▸ prio_isLabelCode w⟩

/-- A scan in which a later hit overwrites an earlier one ends with the last hit (R171). -/
theorem foldl_overwrite_eq {α β : Type} (p : α → Bool) (g : α → β) (c : β) (l : List α) :
    l.foldl (fun acc x => if p x then g x else acc) c = ((l.reverse.find? p).map g).getD c := by
  induction l using List.reverseRecOn with
  | nil => rfl
  | append_singleton l x ih =>
    rw [List.foldl_concat, List.reverse_concat, List.find?_cons, ih]
    cases p x <;> rfl

theorem prio_eq (w : Half) :
    prio w = (((List.range 13).reverse.find? fun n => w.getLsbD n).map (BitVec.ofNat 4)).getD codeOk := by
  unfold prio
  split <;> simp [*]

/-- Settles O51: the last hit of the ascending scan is the first one of the descending search. -/
theorem prioEqualsTheScan : Obligations.PrioEqualsTheScan := by
  unfold Obligations.PrioEqualsTheScan
  intro w
  rw [prio_eq, prioScan, foldl_overwrite_eq]

/-! ### The rows of the table -/

/-- A row applies to the words of which its code is `Prio` (R170, R177). -/
theorem protRow_applies_iff_prio (r : ProtRow) (hr : r ∈ protRows) (w : Half) :
    r.applies w = true ↔ r.code = prio w := by
  rw [protRow_applies_iff r hr, isLabelCode_iff]

/-- Settles O52: the mask is that of the row of "ok". -/
theorem labelIsOkExactlyWithoutFaultBits : Obligations.LabelIsOkExactlyWithoutFaultBits := by
  unfold Obligations.LabelIsOkExactlyWithoutFaultBits
  intro w
  calc prio w = 0xF#4
    _ ↔ rowOk.code = prio w := eq_comm
    _ ↔ rowOk.applies w = true := (protRow_applies_iff_prio rowOk (by decide) w).symm
    _ ↔ w &&& 0x1FFF#16 = 0#16 := decide_eq_true_iff

/-- No two rows of the table have the same code. -/
theorem protRows_codes_nodup : (protRows.map ProtRow.code).Nodup := by decide

/-- Settles O53: the table has one row for each label code. -/
theorem exactlyOneProtectionRowApplies : Obligations.ExactlyOneProtectionRowApplies := by
  unfold Obligations.ExactlyOneProtectionRowApplies
  intro w
  constructor
  · obtain ⟨r, hr, hcode⟩ := protRow_of_isLabelCode w (prio w) (prio_isLabelCode w)
    exact ⟨r, hr, (protRow_applies_iff_prio r hr w).2 hcode, hcode⟩
  · intro q hq r hr hqw hrw
    have hcode : q.code = r.code :=
      ((protRow_applies_iff_prio q hq w).1 hqw).trans ((protRow_applies_iff_prio r hr w).1 hrw).symm
    exact List.inj_on_of_nodup_map protRows_codes_nodup hq hr hcode

/-! ### The rows as operations -/

/-- A row whose pattern the masked word meets latches its code and nothing else (R177). -/
theorem applyRow_of_match (row : ProtRow) (w : Half) (s : State) (h : w &&& row.mask = row.pattern) :
    applyRow row w s = .next { s with unitRec := { s.unitRec with pcode := row.code } } :=
  applyRow_of_applies row w s (decide_eq_true h)

/-- Settles O54: each operation is the application of its row. -/
theorem protectionRowsComplete : Obligations.ProtectionRowsComplete := by
  unfold Obligations.ProtectionRowsComplete
  intro w s
  exact ⟨applyRow_of_match rowOk w s, applyRow_of_match row0 w s, applyRow_of_match row1 w s,
    applyRow_of_match row2 w s, applyRow_of_match row3 w s, applyRow_of_match row4 w s, applyRow_of_match row5 w s,
    applyRow_of_match row6 w s, applyRow_of_match row7 w s, applyRow_of_match row8 w s, applyRow_of_match row9 w s,
    applyRow_of_match row10 w s, applyRow_of_match row11 w s, applyRow_of_match row12 w s⟩

/-- Settles O55: the word decodes to the row that applies to it, and that row latches `Prio`. -/
theorem protectionWordRunsThePriorityEncoder : Obligations.ProtectionWordRunsThePriorityEncoder := by
  unfold Obligations.ProtectionWordRunsThePriorityEncoder
  intro w s hv hp
  obtain ⟨i, hi⟩ := decodeProt_completes w
  have hstep : step s = .next ((s.present []).latchField fun r => { r with pcode := prio w }) := by
    rw [step_of_decode_ok s (.prot w) [] i hv hp hi, exec_of_decodeProt w i hi]
  exact ⟨_, hstep, prio_isLabelCode w, s.sameBlock_refl, rfl⟩

/-! ### The binary rendering -/

/-- Settles O56: the digit of bit 15 - k stands at place k. -/
theorem bin16ShowsBitFifteenFirst : Obligations.Bin16ShowsBitFifteenFirst := by
  unfold Obligations.Bin16ShowsBitFifteenFirst
  intro w
  refine ⟨by rw [bin16, List.length_map, List.length_range], fun k hk => ?_⟩
  rw [bin16, List.getElem?_map, List.getElem?_range (Nat.lt_succ_of_le hk), Option.map_some]

end Sys2Proof.Machine
end

section
/-! The obligations of 60_exceptions.md: how a finished cycle is left (R216, R220), and what entering `DONE_FAIL` writes
and finds (R210, R212, R219). -/

namespace Sys2Proof.Machine

/-! ### Leaving an outcome -/

/-- `DONE` is 1 in no phase that waits (R216). -/
theorem State.not_waiting_of_done (s : State) (h : s.done = true) : s.phase.waiting = false :=
  (Phase.not_waiting_iff _).2 (.inr (s.done_iff.1 h))

/-- Settles O25: the cells of R101 other than START and reset begin in a phase that waits. -/
theorem doneIsLeftByStartOrResetOnly : Obligations.DoneIsLeftByStartOrResetOnly := by
  unfold Obligations.DoneIsLeftByStartOrResetOnly
  intro i s t hdone he hne
  have hnot : s.phase.waiting ≠ true := Bool.eq_false_iff.1 (s.not_waiting_of_done hdone)
  rcases phaseMovesOnlyAlongTheTable i s t he hne with ⟨hi, -⟩ | ⟨hi, -⟩ | ⟨-, hw, -⟩ | ⟨-, hp, -⟩ | ⟨-, hp, -⟩
  · exact .inr hi
  · exact .inl hi
  · exact absurd hw hnot
  · exact absurd ((Phase.waiting_iff _).2 (.inl hp)) hnot
  · exact absurd ((Phase.waiting_iff _).2 (.inr hp)) hnot

/-! ### Entering `DONE_FAIL` -/

/-- Where FailAttempt ends in `DONE_FAIL` it has discarded the buffer and raised an error (R103, R212). -/
theorem State.failAttempt_raises (s : State) (h : s.failAttempt.phase = .doneFail) :
    ∃ e, s.failAttempt = State.raise { s with bufLen := 0 } e := by
  rcases s.failAttempt_cases with ⟨-, ht⟩ | ⟨-, ht⟩
  · rw [ht] at h
    cases h
  · exact ⟨_, ht⟩

/-- The same for Complete (R104, R212). -/
theorem State.complete_raises (s : State) (h : s.complete.phase = .doneFail) :
    ∃ e, s.complete = State.raise { s with bufLen := 0 } e := by
  rcases s.complete_cases with ⟨r, -, ht⟩ | ⟨-, ht⟩
  · rw [ht] at h
    cases h
  · exact ⟨_, ht⟩

/-- The same for the end of a second chunk's step (R108, R212). -/
theorem judgeFrame_raises (s : State) (h : (judgeFrame s).phase = .doneFail) :
    ∃ e, judgeFrame s = State.raise { s with bufLen := 0 } e := by
  rcases judgeFrame_cases s with ⟨-, ht⟩ | ⟨-, ht⟩ <;> rw [ht] at h ⊢
  · exact s.complete_raises h
  · exact s.failAttempt_raises h

/-- `raise` is the one way into `DONE_FAIL`: besides what it writes, only the buffer changes (R210, R212). -/
theorem exec_raises (i : Instr) (s t : State) (he : exec i s = .next t) (hs : s.phase ≠ .doneFail)
    (ht : t.phase = .doneFail) : ∃ m e, t = State.raise { s with buf := m, bufLen := 0 } e := by
  rcases exec_cases i s t he with ⟨-, rfl⟩ | ⟨-, -, rfl⟩ | ⟨-, -, rfl⟩ | ⟨d, -, -, -, rfl⟩ | ⟨d, -, -, -, rfl⟩ |
    ⟨d, -, -, -, rfl⟩ | ⟨-, rfl⟩ | ⟨-, rfl⟩ | ⟨-, -, -, -, d, m, r, rfl⟩
  · exact absurd ht hs
  · cases ht
  · exact ⟨s.buf, s.failAttempt_raises ht⟩
  · exact ⟨s.buf, s.failAttempt_raises ht⟩
  · cases ht
  · exact ⟨s.buf.writeBytes s.bufLen d, judgeFrame_raises (s.storeChunk d) ht⟩
  · cases ht
  · exact absurd ht hs
  · exact absurd ht hs

theorem Err.eq_of_ne_none (e : Err) (h : e ≠ .none) : e = .noResponse ∨ e = .malformedFrame := by
  cases e with
  | none => exact absurd rfl h
  | noResponse => exact .inl rfl
  | malformedFrame => exact .inr rfl

/-- Settles O30: `raise` leaves the rest of the state, and R35, which the step keeps, fixes the record, `BUF_LEN` and
`ERR` in `DONE_FAIL`. -/
theorem errorEntryWritesErrAndPhase : Obligations.ErrorEntryWritesErrAndPhase := by
  unfold Obligations.ErrorEntryWritesErrAndPhase
  intro i s t h he hs ht
  obtain ⟨-, hseq, -, -⟩ := exec_inv i s t h he
  obtain ⟨hlen, -, hvalid, herr, -, hregs⟩ := (t.sequencerInv_iff_of_doneFail ht).1 hseq
  obtain ⟨m, e, rfl⟩ := exec_raises i s t he hs ht
  exact ⟨Err.eq_of_ne_none _ herr, hvalid, hregs, rfl, hlen, rfl, rfl, rfl, rfl, rfl, rfl, rfl⟩

end Sys2Proof.Machine
end

section
/-! The obligation of 70_reset_and_hazards.md: what a reset leaves, from every state (R240, R33). -/

namespace Sys2Proof.Machine

/-- `RST` = 1 is RESET, whatever event and operand stand beside it (R74, R218). -/
theorem decode_ports_rst (ev : BitVec 3) (data : List Byte) : decode (.ports 1#1 ev data) = .ok .reset := rfl

/-- RESET completes in every phase (R240). -/
theorem exec_reset (s : State) : exec .reset s = .next s.resetBlock := rfl

/-- The status word reads zero after a reset: its fields are all reset values, the same from every state (R31, R33). -/
@[simp] theorem State.resetBlock_status (s : State) : s.resetBlock.status = 0x0000#16 := by
  have hsame : s.resetBlock.status = State.reset.status := rfl
  rw [hsame]
  decide

/-- A reset leaves the model's own fields (log entry 16). -/
theorem State.sameOwn_resetBlock (s : State) : s.sameOwn s.resetBlock := ⟨rfl, rfl, rfl, rfl, rfl⟩

/-- Settles O23: the state that RESET gives is `resetBlock`, in whose phase, `IDLE`, a chunk is ignored. -/
theorem resetSetsTheResetValues : Obligations.ResetSetsTheResetValues := by
  unfold Obligations.ResetSetsTheResetValues
  intro s ev data
  have hchunk : ∀ c, exec (.chunk c) s.resetBlock = .next { s.resetBlock with ign := true } := fun c =>
    chunkOutsideAnAttemptOnlySetsIgn s.resetBlock c (.inl s.resetBlock_phase)
  refine ⟨decode_ports_rst ev data, s.resetBlock, exec_reset s, ?_⟩
  simp [Record.cleared, s.sameOwn_resetBlock, hchunk]

end Sys2Proof.Machine
end
